-- ==== Sys2Proof/Word.lean ====
section
/-! DEFINITION. The bit-vector types of the HP-35 microinstruction core (00_scope.md rule R8, R13) and the
14-nibble register (10_state.md rule R20). -/

namespace Sys2Proof

/-- One byte: a ROM image byte, an address within a bank, a key code or a frame-buffer cell. -/
abbrev Byte := BitVec 8

/-- A nibble, 0..15: one BCD digit or a small flag code (R21). -/
abbrev Nibble := BitVec 4

/-- A 10-bit microinstruction word (R80). -/
abbrev MicroWord := BitVec 10

/-- A ROM bank number, 0..7 (R31). -/
abbrev Bank := BitVec 3

/-- The status array S[0..11] (R26): bit `i` is `S[i]`. -/
abbrev StatusBits := BitVec 12

/-- A 14-nibble register, index 0 the least significant digit and index 13 the sign position (R14, R20). -/
abbrev Reg := Vector Nibble 14

/-- The register whose every nibble is 0. -/
abbrev Reg.zero : Reg := Vector.replicate 14 0

end Sys2Proof
end

