-- ==== Sys2Proof/Syntax.lean ====
section
/-! DEFINITION. The instruction set: one constructor per instruction of spec/opcode_table.json (30_encoding.md
rules R84, R85, R88). The table's 19 rows named UNDEFINED are one instruction (R85 maps them to one `UNDEFINED`);
its constructor carries the low byte that tells the rows apart (R98). -/

namespace Sys2Proof

/-- The slice code `w[4:2]` of an arithmetic word, under the field names of R106 (40_bcd_alu_slices.md R124). -/
inductive SliceCode where
  | p | m | x | w | wp | ms | xs | s
  deriving DecidableEq, Repr

/-- The four families of R81, selected by `w[1:0]`. -/
inductive Family where
  | call | arithmetic | branch | misc
  deriving DecidableEq, Repr

/-- A microinstruction. -/
inductive Instr where
  /-- `CALL a` (R140). -/
  | call (a : Byte)
  /-- `BRNC a` (R142). -/
  | brnc (a : Byte)
  /-- `TST B<>0 [f]`, opcode 0x00 (R202). -/
  | tstB (f : SliceCode)
  /-- `0->B [f]`, opcode 0x01 (R203). -/
  | clrB (f : SliceCode)
  /-- `A-C->T [f]`, opcode 0x02 (R204). -/
  | subACtoT (f : SliceCode)
  /-- `TST C-1 [f]`, opcode 0x03 (R205). -/
  | tstDecC (f : SliceCode)
  /-- `B->C [f]`, opcode 0x04 (R206). -/
  | movBC (f : SliceCode)
  /-- `0-C->C [f]`, opcode 0x05 (R207). -/
  | negC (f : SliceCode)
  /-- `0->C [f]`, opcode 0x06 (R208). -/
  | clrC (f : SliceCode)
  /-- `0-C-1->C [f]`, opcode 0x07 (R209). -/
  | nineC (f : SliceCode)
  /-- `SHL A [f]`, opcode 0x08 (R210). -/
  | shlA (f : SliceCode)
  /-- `A->B [f]`, opcode 0x09 (R211). -/
  | movAB (f : SliceCode)
  /-- `A-C->C [f]`, opcode 0x0A (R212). -/
  | subACtoC (f : SliceCode)
  /-- `C-1->C [f]`, opcode 0x0B (R213). -/
  | decC (f : SliceCode)
  /-- `C->A [f]`, opcode 0x0C (R214). -/
  | movCA (f : SliceCode)
  /-- `TST C<>0 [f]`, opcode 0x0D (R215). -/
  | tstC (f : SliceCode)
  /-- `A+C->C [f]`, opcode 0x0E (R216). -/
  | addACtoC (f : SliceCode)
  /-- `C+1->C [f]`, opcode 0x0F (R217). -/
  | incC (f : SliceCode)
  /-- `A-B->T [f]`, opcode 0x10 (R218). -/
  | subABtoT (f : SliceCode)
  /-- `B<->C [f]`, opcode 0x11 (R219). -/
  | xchBC (f : SliceCode)
  /-- `SHR C [f]`, opcode 0x12 (R220). -/
  | shrC (f : SliceCode)
  /-- `TST A-1 [f]`, opcode 0x13 (R221). -/
  | tstDecA (f : SliceCode)
  /-- `SHR B [f]`, opcode 0x14 (R222). -/
  | shrB (f : SliceCode)
  /-- `C+C->C [f]`, opcode 0x15 (R223). -/
  | dblC (f : SliceCode)
  /-- `SHR A [f]`, opcode 0x16 (R224). -/
  | shrA (f : SliceCode)
  /-- `0->A [f]`, opcode 0x17 (R225). -/
  | clrA (f : SliceCode)
  /-- `A-B->A [f]`, opcode 0x18 (R226). -/
  | subABtoA (f : SliceCode)
  /-- `A<->B [f]`, opcode 0x19 (R227). -/
  | xchAB (f : SliceCode)
  /-- `A-C->A [f]`, opcode 0x1A (R228). -/
  | subACtoA (f : SliceCode)
  /-- `A-1->A [f]`, opcode 0x1B (R229). -/
  | decA (f : SliceCode)
  /-- `A+B->A [f]`, opcode 0x1C (R230). -/
  | addABtoA (f : SliceCode)
  /-- `A<->C [f]`, opcode 0x1D (R231). -/
  | xchAC (f : SliceCode)
  /-- `A+C->A [f]`, opcode 0x1E (R232). -/
  | addACtoA (f : SliceCode)
  /-- `A+1->A [f]`, opcode 0x1F (R233). -/
  | incA (f : SliceCode)
  /-- `RET` (R144). -/
  | ret
  /-- `SELROM b` (R145). -/
  | selrom (b : Bank)
  /-- `KEYJMP` (R147). -/
  | keyjmp
  /-- `TSTS n` (R160). -/
  | tsts (n : Nibble)
  /-- `SETS n` (R161). -/
  | sets (n : Nibble)
  /-- `CLRS n` (R162). -/
  | clrs (n : Nibble)
  /-- `CLRST` (R163). -/
  | clrst
  /-- `TSTP n` (R165). -/
  | tstp (n : Nibble)
  /-- `SETP n` (R166). -/
  | setp (n : Nibble)
  /-- `INCP` (R167). -/
  | incp
  /-- `DECP` (R168). -/
  | decp
  /-- `LDC k` (R170). -/
  | ldc (k : Nibble)
  /-- `XCM` (R181). -/
  | xcm
  /-- `PUSH` (R182). -/
  | push
  /-- `POP` (R183). -/
  | pop
  /-- `MTOC` (R184). -/
  | mtoc
  /-- `ROT` (R185). -/
  | rot
  /-- `CLREG` (R186). -/
  | clreg
  /-- `DISPOFF` (R187). -/
  | dispoff
  /-- `DISPTOG` (R188). -/
  | disptog
  /-- An UNDEFINED word (R98, R99); `l` is its low byte `w[7:0]`, one of 19 values. -/
  | undefined (l : Byte)
  deriving DecidableEq, Repr

/-- The pseudo-instruction `GOTO a`: `BRNC a` by another name (R107). -/
def Instr.goto (a : Byte) : Instr := .brnc a

/-- The pseudo-instruction `NOP`: the UNDEFINED word 0x000 (R105, R107). -/
def Instr.nop : Instr := .undefined 0x00

end Sys2Proof
end

