-- ==== Sys2Proof/WellFormed.lean ====
section
/-! DEFINITION. Which instruction terms stand for a word. Every operand field admits all its values (30_encoding.md
R83: fields are used as is, and an index out of range is a fault at execution, not at decoding); the one check is that
an UNDEFINED term names one of the 19 low bytes of R98. -/

namespace Sys2Proof

/-- The 19 low bytes of the UNDEFINED words (R98). -/
def undefinedLowBytes : List Byte :=
  [0x00, 0x08, 0x20, 0x40, 0x48, 0x50, 0x60, 0x68, 0x70, 0x78,
   0x80, 0x88, 0xA0, 0xC0, 0xC8, 0xE0, 0xE8, 0xF0, 0xF8]

/-- The instruction is one the decoder can give. -/
def Instr.wellFormed : Instr → Bool
  | .call _ => true
  | .brnc _ => true
  | .tstB _ => true
  | .clrB _ => true
  | .subACtoT _ => true
  | .tstDecC _ => true
  | .movBC _ => true
  | .negC _ => true
  | .clrC _ => true
  | .nineC _ => true
  | .shlA _ => true
  | .movAB _ => true
  | .subACtoC _ => true
  | .decC _ => true
  | .movCA _ => true
  | .tstC _ => true
  | .addACtoC _ => true
  | .incC _ => true
  | .subABtoT _ => true
  | .xchBC _ => true
  | .shrC _ => true
  | .tstDecA _ => true
  | .shrB _ => true
  | .dblC _ => true
  | .shrA _ => true
  | .clrA _ => true
  | .subABtoA _ => true
  | .xchAB _ => true
  | .subACtoA _ => true
  | .decA _ => true
  | .addABtoA _ => true
  | .xchAC _ => true
  | .addACtoA _ => true
  | .incA _ => true
  | .ret => true
  | .selrom _ => true
  | .keyjmp => true
  | .tsts _ => true
  | .sets _ => true
  | .clrs _ => true
  | .clrst => true
  | .tstp _ => true
  | .setp _ => true
  | .incp => true
  | .decp => true
  | .ldc _ => true
  | .xcm => true
  | .push => true
  | .pop => true
  | .mtoc => true
  | .rot => true
  | .clreg => true
  | .dispoff => true
  | .disptog => true
  | .undefined l => undefinedLowBytes.contains l

end Sys2Proof
end

