-- ==== Sys2Proof/Decode.lean ====
section
/-! DEFINITION. The decoder of 30_encoding.md R80 to R85, total on any bytes, and the encoder written from the formats
of R84 and the canonical words of R105 and R106. -/

namespace Sys2Proof

/-- Why bytes do not decode. -/
inductive DecodeRefusal where
  /-- Fewer than two bytes: no ROM word pair (R62, R63). -/
  | truncated
  /-- `H[7:2]` is not 0: the spec refuses an image that holds such a pair (R62, decision D2). -/
  | highBits
  deriving DecidableEq, Repr

/-- What the decoder answers on bytes. -/
inductive Decoded where
  /-- An instruction and the bytes after its word. -/
  | instr (i : Instr) (rest : List Byte)
  /-- No instruction, and why. -/
  | refused (why : DecodeRefusal)
  deriving DecidableEq, Repr

/-! ### Field accessors (R82) -/

/-- `tgt(w) = w[9:2]`, a call or branch target. -/
def fieldTgt (w : MicroWord) : Byte := w.extractLsb' 2 8

/-- `code(w) = w[4:2]`, the slice code. -/
def fieldCode (w : MicroWord) : BitVec 3 := w.extractLsb' 2 3

/-- `op(w) = w[9:5]`, the arithmetic opcode. -/
def fieldOp (w : MicroWord) : BitVec 5 := w.extractLsb' 5 5

/-- `bitsel(w)` and `k(w)`: both are `w[9:6]`. -/
def fieldN (w : MicroWord) : Nibble := w.extractLsb' 6 4

/-- `bank(w) = w[9:7]`. -/
def fieldBank (w : MicroWord) : Bank := w.extractLsb' 7 3

/-- `l7f(w) = w[6:0]`. -/
def fieldL7f (w : MicroWord) : BitVec 7 := w.extractLsb' 0 7

/-- `l3f(w) = w[5:0]`. -/
def fieldL3f (w : MicroWord) : BitVec 6 := w.extractLsb' 0 6

/-- `h(w) = w[9:8]`. -/
def fieldH (w : MicroWord) : BitVec 2 := w.extractLsb' 8 2

/-- `L = w[7:0]`, the low byte of the word. -/
def fieldL (w : MicroWord) : Byte := w.extractLsb' 0 8

/-- `lmove(w)`: `w[7:0]` with bit 4 forced to 0. -/
def fieldLmove (w : MicroWord) : Byte := fieldL w &&& 0xEF

/-- The slice code of its three bits (R124). -/
def SliceCode.ofBits (c : BitVec 3) : SliceCode :=
  match c.toNat with
  | 0 => .p
  | 1 => .m
  | 2 => .x
  | 3 => .w
  | 4 => .wp
  | 5 => .ms
  | 6 => .xs
  | _ => .s

/-- The three bits of a slice code (R124). -/
def SliceCode.bits : SliceCode → BitVec 3
  | .p => 0
  | .m => 1
  | .x => 2
  | .w => 3
  | .wp => 4
  | .ms => 5
  | .xs => 6
  | .s => 7

/-- `ARITH op, code`: the arithmetic instruction of a 5-bit opcode (R88). -/
def decodeArith (op : BitVec 5) (f : SliceCode) : Instr :=
  match op.toNat with
  | 0x00 => .tstB f
  | 0x01 => .clrB f
  | 0x02 => .subACtoT f
  | 0x03 => .tstDecC f
  | 0x04 => .movBC f
  | 0x05 => .negC f
  | 0x06 => .clrC f
  | 0x07 => .nineC f
  | 0x08 => .shlA f
  | 0x09 => .movAB f
  | 0x0A => .subACtoC f
  | 0x0B => .decC f
  | 0x0C => .movCA f
  | 0x0D => .tstC f
  | 0x0E => .addACtoC f
  | 0x0F => .incC f
  | 0x10 => .subABtoT f
  | 0x11 => .xchBC f
  | 0x12 => .shrC f
  | 0x13 => .tstDecA f
  | 0x14 => .shrB f
  | 0x15 => .dblC f
  | 0x16 => .shrA f
  | 0x17 => .clrA f
  | 0x18 => .subABtoA f
  | 0x19 => .xchAB f
  | 0x1A => .subACtoA f
  | 0x1B => .decA f
  | 0x1C => .addABtoA f
  | 0x1D => .xchAC f
  | 0x1E => .addACtoA f
  | _ => .incA f

/-- The miscellaneous family, `w[1:0] = 0b00`: the `elif` chain of R85. -/
def decodeMisc (w : MicroWord) : Instr :=
  if fieldL7f w = 0x30 then .ret
  else if fieldL7f w = 0x10 then .selrom (fieldBank w)
  else if fieldL w = 0xD0 then .keyjmp
  else if fieldL3f w = 0x14 then .tsts (fieldN w)
  else if fieldL3f w = 0x04 then .sets (fieldN w)
  else if fieldL3f w = 0x24 then .clrs (fieldN w)
  else if fieldL3f w = 0x34 then .clrst
  else if fieldL3f w = 0x2C then .tstp (fieldN w)
  else if fieldL3f w = 0x0C then .setp (fieldN w)
  else if fieldL3f w = 0x3C then .incp
  else if fieldL3f w = 0x1C then .decp
  else if fieldL3f w = 0x18 then .ldc (fieldN w)
  else if fieldLmove w = 0xA8 ∧ fieldH w = 0 then .xcm
  else if fieldLmove w = 0x28 ∧ fieldH w = 1 then .push
  else if fieldLmove w = 0xA8 ∧ fieldH w = 1 then .pop
  else if fieldLmove w = 0xA8 ∧ fieldH w = 2 then .mtoc
  else if fieldLmove w = 0x28 ∧ fieldH w = 3 then .rot
  else if fieldLmove w = 0xA8 ∧ fieldH w = 3 then .clreg
  else if fieldLmove w = 0x28 ∧ fieldH w = 0 then .dispoff
  else if fieldLmove w = 0x28 ∧ fieldH w = 2 then .disptog
  else .undefined (fieldL w)

/-- `Decode(w)` of R85: every 10-bit word is one instruction or UNDEFINED. -/
def decodeWord (w : MicroWord) : Instr :=
  match (w.extractLsb' 0 2).toNat with
  | 1 => .call (fieldTgt w)
  | 3 => .brnc (fieldTgt w)
  | 2 => decodeArith (fieldOp w) (SliceCode.ofBits (fieldCode w))
  | _ => decodeMisc w

/-- The family a word belongs to (R81). -/
def wordFamily (w : MicroWord) : Family :=
  match (w.extractLsb' 0 2).toNat with
  | 1 => .call
  | 2 => .arithmetic
  | 3 => .branch
  | _ => .misc

/-- The word of a ROM byte pair, `{H[1:0], L}` (R62). -/
def pairWord (h l : Byte) : MicroWord := h.extractLsb' 0 2 ++ l

/-- The decoder on the bytes of the image, H first (R62): it refuses a pair whose `H[7:2]` is not 0. -/
def decode : List Byte → Decoded
  | h :: l :: rest =>
    if h.extractLsb' 2 6 = 0 then .instr (decodeWord (pairWord h l)) rest else .refused .highBits
  | _ => .refused .truncated

/-! ### The encoder -/

/-- Format J: `{a, tag}`. -/
def wordJ (a : Byte) (tag : BitVec 2) : MicroWord := a ++ tag

/-- Format R: `{op, code, 0b10}` (R200). -/
def wordR (op : BitVec 5) (f : SliceCode) : MicroWord := op ++ (f.bits ++ 2#2 : BitVec 5)

/-- Format M6: `{n, l3f}`. -/
def wordM6 (n : Nibble) (l3f : BitVec 6) : MicroWord := n ++ l3f

/-- Format S with the ignored `w[4]` at 0: `{h, low}`. -/
def wordS (h : BitVec 2) (low : Byte) : MicroWord := h ++ low

/-- The canonical word of an instruction: every ignored bit is 0 (R105, R106). -/
def encodeWord : Instr → MicroWord
  | .call a => wordJ a 1
  | .brnc a => wordJ a 3
  | .tstB f => wordR 0x00 f
  | .clrB f => wordR 0x01 f
  | .subACtoT f => wordR 0x02 f
  | .tstDecC f => wordR 0x03 f
  | .movBC f => wordR 0x04 f
  | .negC f => wordR 0x05 f
  | .clrC f => wordR 0x06 f
  | .nineC f => wordR 0x07 f
  | .shlA f => wordR 0x08 f
  | .movAB f => wordR 0x09 f
  | .subACtoC f => wordR 0x0A f
  | .decC f => wordR 0x0B f
  | .movCA f => wordR 0x0C f
  | .tstC f => wordR 0x0D f
  | .addACtoC f => wordR 0x0E f
  | .incC f => wordR 0x0F f
  | .subABtoT f => wordR 0x10 f
  | .xchBC f => wordR 0x11 f
  | .shrC f => wordR 0x12 f
  | .tstDecA f => wordR 0x13 f
  | .shrB f => wordR 0x14 f
  | .dblC f => wordR 0x15 f
  | .shrA f => wordR 0x16 f
  | .clrA f => wordR 0x17 f
  | .subABtoA f => wordR 0x18 f
  | .xchAB f => wordR 0x19 f
  | .subACtoA f => wordR 0x1A f
  | .decA f => wordR 0x1B f
  | .addABtoA f => wordR 0x1C f
  | .xchAC f => wordR 0x1D f
  | .addACtoA f => wordR 0x1E f
  | .incA f => wordR 0x1F f
  | .ret => 0x030
  | .selrom b => b ++ 0x10#7
  | .keyjmp => 0x0D0
  | .tsts n => wordM6 n 0x14
  | .sets n => wordM6 n 0x04
  | .clrs n => wordM6 n 0x24
  | .clrst => wordM6 0 0x34
  | .tstp n => wordM6 n 0x2C
  | .setp n => wordM6 n 0x0C
  | .incp => wordM6 0 0x3C
  | .decp => wordM6 0 0x1C
  | .ldc k => wordM6 k 0x18
  | .xcm => wordS 0 0xA8
  | .push => wordS 1 0x28
  | .pop => wordS 1 0xA8
  | .mtoc => wordS 2 0xA8
  | .rot => wordS 3 0x28
  | .clreg => wordS 3 0xA8
  | .dispoff => wordS 0 0x28
  | .disptog => wordS 2 0x28
  | .undefined l => wordS 0 l

/-- The byte H of a word's pair, its bits 7..2 at 0 (R62). -/
def highByte (w : MicroWord) : Byte := (w.extractLsb' 8 2).setWidth 8

/-- The bytes of a word as the image holds them: H, then L (R62). -/
def wordBytes (w : MicroWord) : List Byte := [highByte w, fieldL w]

/-- The bytes of a well-formed instruction. -/
def encode (i : Instr) : List Byte := wordBytes (encodeWord i)

/-- The bits of a word that the format of its instruction ignores (R84, R100). -/
def ignoredBits : Instr → MicroWord
  | .ret => 0x380
  | .keyjmp => 0x300
  | .clrst | .incp | .decp => 0x3C0
  | .xcm | .push | .pop | .mtoc | .rot | .clreg | .dispoff | .disptog => 0x010
  | .undefined _ => 0x300
  | .call _ | .brnc _ | .selrom _ | .tsts _ | .sets _ | .clrs _ | .tstp _ | .setp _ | .ldc _ => 0
  | .tstB _ | .clrB _ | .subACtoT _ | .tstDecC _ | .movBC _ | .negC _ | .clrC _ | .nineC _
  | .shlA _ | .movAB _ | .subACtoC _ | .decC _ | .movCA _ | .tstC _ | .addACtoC _ | .incC _
  | .subABtoT _ | .xchBC _ | .shrC _ | .tstDecA _ | .shrB _ | .dblC _ | .shrA _ | .clrA _
  | .subABtoA _ | .xchAB _ | .subACtoA _ | .decA _ | .addABtoA _ | .xchAC _ | .addACtoA _ | .incA _ => 0

/-- What the decoder reads from the bits of an opcode-table row: `w` numbers the 10-bit word's bits from its least
significant one, and its pair is laid out as the image holds it, H (bits 15..8) at the lower index. -/
def decodeTableWord (nbits w : Nat) : Option Instr :=
  let v := BitVec.ofNat 16 (w % 2 ^ nbits)
  match decode [v.extractLsb' 8 8, v.extractLsb' 0 8] with
  | .instr i _ => some i
  | .refused _ => none

end Sys2Proof
end

