-- ==== Sys2Proof/Config.lean ====
section
/-! DEFINITION. The named parameters of the step (00_scope.md rules R9, R10; 92_eei_decisions.md, "Named parameters")
and the display constants of 60_exceptions.md R273 and R275. The ROM image, the remaining parameter (R12), is
`State.rom`. -/

namespace Sys2Proof

/-- `GK_OPS` (44_arithmetic.md R201). -/
inductive GkPolicy where
  /-- The six general-knowledge opcodes run. -/
  | admits
  /-- They raise `Fault(Unmodelled)`. -/
  | refuses
  deriving DecidableEq, Repr

/-- `ROTATE_READING` (43_moves_display.md R185). -/
inductive RotateReading where
  | down
  | arrow
  deriving DecidableEq, Repr

/-- The parameters of the model, fixed for a run. -/
structure Config where
  /-- `ROM_BANKS`, 1..8 (R9). -/
  romBanks : Nat
  /-- `GK_OPS` (R201). -/
  gkOps : GkPolicy
  /-- `ROTATE_READING` (R185). -/
  rotate : RotateReading
  /-- `DISPLAY_SEQUENTIAL` (R188). -/
  displaySequential : Bool
  /-- `TRAP_ON_UNDEFINED` (R99). -/
  trapOnUndefined : Bool
  /-- `GLYPH`, indexed by the digit value; `Config.wf` keeps bit 7 at 0 (R275). -/
  glyph : Vector Byte 16
  deriving DecidableEq, Repr

/-- The default `GLYPH` of R275, segments a..g on bits 0..6. -/
def defaultGlyph : Vector Byte 16 :=
  #v[0x3F, 0x06, 0x5B, 0x4F, 0x66, 0x6D, 0x7D, 0x07, 0x7F, 0x6F, 0x00, 0x00, 0x00, 0x00, 0x00, 0x00]

/-- Every parameter at its default (R9, R10). -/
def Config.default : Config where
  romBanks := 3
  gkOps := .admits
  rotate := .down
  displaySequential := false
  trapOnUndefined := false
  glyph := defaultGlyph

/-- The values the parameters may take: `ROM_BANKS` is 1..8 (R9), and no value of `GLYPH` has bit 7 set, so that only the
flag of a digit lights the decimal point (R275, decision D18); the others are unrestricted. -/
abbrev Config.wf (k : Config) : Prop :=
  1 ≤ k.romBanks ∧ k.romBanks ≤ 8 ∧ ∀ i : Fin 16, k.glyph[i].getLsbD 7 = false

/-- `BLANK`: no segment lit (R273). -/
def cellBlank : Byte := 0x00

/-- `MINUS`: segment g alone (R273). -/
def cellMinus : Byte := 0x40

/-- `DP`: bit 7, the decimal point (R273). -/
def cellDp : Byte := 0x80

end Sys2Proof
end

