-- ==== Sys2Proof/Machine/State.lean ====
section
/-! DEFINITION. The state of the core (10_state.md), the model-fault record (60_exceptions.md R261), the ROM image
(20_memory.md R62) and the state after reset (R45, R46, R300). -/

namespace Sys2Proof.Machine

/-- The kinds of model fault (the table of R261). Raising one writes `State.fault`; it is not behaviour of the
hardware (R260). -/
inductive FaultKind where
  /-- Fetch from a bank that is not populated, or past the image (R262). -/
  | fetchUnpopulated
  /-- P = 14 or 15 used as a digit index (R125, R170). -/
  | pointerRange
  /-- Status index 12..15 (R164). -/
  | statusIndex
  /-- Jump-on-key with no key transferred since the last one or reset (R147). -/
  | staleKey
  /-- An UNDEFINED word under `TRAP_ON_UNDEFINED = true` (R99). -/
  | undefinedWord
  /-- A general-knowledge opcode under `GK_OPS = refuse` (R201). -/
  | unmodelled
  deriving DecidableEq, Repr

/-- The record `(kind, bank, addr, word)` that FAULT receives (R41, R261). -/
structure FaultRecord where
  kind : FaultKind
  bank : Bank
  addr : Byte
  /-- The fetched word; absent for `fetchUnpopulated`. -/
  word : Option MicroWord
  deriving DecidableEq, Repr

/-- The microinstruction of the cycle in progress: where it was fetched and what it is. It is the MODEL's own field,
read only when a model fault is recorded (R261); between cycles it is `Fetched.idle`. -/
structure Fetched where
  bank : Bank
  addr : Byte
  word : Option MicroWord
  deriving DecidableEq, Repr

/-- No cycle in progress. -/
def Fetched.idle : Fetched where
  bank := 0
  addr := 0
  word := none

/-- The ROM image: pairs of a byte index and a byte, indices strictly rising. An index that is not listed holds no
byte (R63: a fetch from there has no value). -/
abbrev Memory := List Host.Cell

/-- `LATCH` empty (R36). -/
def latchEmpty : Byte := 0xFF

/-- Every piece of state of 10_state.md, the block's two outputs of R40, the fetch in progress (the model's own), and
the parameters of the run (R9, R10, R12). -/
structure State where
  /-- Working register A (R20). -/
  a : Reg
  /-- Working register B (R20). -/
  b : Reg
  /-- Working register C (R20). -/
  c : Reg
  /-- Working register D (R20). -/
  d : Reg
  /-- Working register E (R20). -/
  e : Reg
  /-- Working register F (R20). -/
  f : Reg
  /-- Scratchpad M (R25). -/
  m : Reg
  /-- Temporary T (R24). -/
  t : Reg
  /-- The status array S[0..11] (R26, R27). -/
  status : StatusBits
  /-- The pointer P (R28). -/
  p : Nibble
  /-- The program counter within the bank (R29). -/
  pc : Byte
  /-- The one-level return slot RET (R30). -/
  ret : Byte
  /-- The ROM bank selector OFFSET (R31). -/
  offset : Bank
  /-- CARRY (R32). -/
  carry : Bool
  /-- PREV_CARRY, the branch predicate (R33). -/
  prevCarry : Bool
  /-- KEY_ROM (R34). -/
  keyRom : Byte
  /-- KEY_VALID (R35). -/
  keyValid : Bool
  /-- The key input latch; 0xFF is empty (R36). -/
  latch : Byte
  /-- The display-enable latch DE (R37). -/
  de : Bool
  /-- The pending-update bit UPD (R38). -/
  upd : Bool
  /-- The frame buffer FB[0..7] (R39). -/
  fb : Vector Byte 8
  /-- The output FRAME of the last cycle (R40, R272). -/
  frame : Bool
  /-- The output ERR of the last cycle that did not fault (R40, R280). -/
  err : Bool
  /-- FAULT: empty, or the record of the model fault raised (R41). -/
  fault : Option FaultRecord
  /-- The fetch of the cycle in progress (the model's own). -/
  fetched : Fetched
  /-- The ROM image (R12, R62). -/
  rom : Memory
  /-- The parameters of the run (R9, R10). -/
  cfg : Config
  deriving DecidableEq, Repr

/-- The machine right after power-on reset, with no ROM image and every parameter at its default (R45, R46, R300). -/
def State.reset : State where
  a := Reg.zero
  b := Reg.zero
  c := Reg.zero
  d := Reg.zero
  e := Reg.zero
  f := Reg.zero
  m := Reg.zero
  t := Reg.zero
  status := 0
  p := 0
  pc := 0
  ret := 0
  offset := 0
  carry := false
  prevCarry := false
  keyRom := 0
  keyValid := false
  latch := latchEmpty
  de := false
  upd := false
  fb := Vector.replicate 8 0x00
  frame := false
  err := false
  fault := none
  fetched := Fetched.idle
  rom := []
  cfg := Config.default

/-- Why a step stops with no next state. -/
inductive Fault where
  /-- Raised by `step` on a state whose FAULT holds a record: the state is stuck, `Cycle()` makes no further step
  (R90, R261). Safe: the spec gives no step. -/
  | stuck (r : FaultRecord)
  deriving DecidableEq, Repr

/-- Why the model declines. -/
inductive Refusal where
  /-- Raised by `exec` for an instruction that has no meaning yet. Safe. -/
  | notModelled (mnemonic : String)
  /-- Raised by `step` on fetching a pair whose `H[7:2]` is not 0 and by `powerOn` on an image that holds one: the
  spec refuses such an image before any cycle (R62, decision D2). Safe. -/
  | imageHighBits
  /-- Raised by `powerOn` on an image longer than `ROM_BANKS` banks of 512 bytes (R62, R303). Safe. -/
  | imageTooLong
  /-- Raised by `powerOn` on parameters outside their range (`Config.wf`). Safe. -/
  | badConfig
  /-- Raised by `hostStep` on a key write of 0xFF, which means "empty" and cannot be delivered (R267, R291). Safe. -/
  | emptyKeyCode
  deriving DecidableEq, Repr

/-- The outcome of a step or a meaning. -/
abbrev Result := Host.Outcome State Fault Refusal

end Sys2Proof.Machine
end

