-- ==== Sys2Proof/Machine/Operands.lean ====
section
/-! DEFINITION. The operand forms: digits of a register (R14), the slice selector (R124, R125) and the bits of the
status array (R26, R164). -/

namespace Sys2Proof

/-- `X[i]` (R14); an index past 13 reads 0, and no rule uses one. -/
def Reg.digit (r : Reg) (i : Nat) : Nibble := r[i]?.getD 0

/-- `X[i] <- v` (R14); an index past 13 writes nothing, and no rule uses one. -/
def Reg.setDigit (r : Reg) (i : Nat) (v : Nibble) : Reg := r.setIfInBounds i v

end Sys2Proof

namespace Sys2Proof.Machine

/-- An inclusive digit range `[first..last]`. -/
structure DigitRange where
  first : Nat
  last : Nat
  deriving DecidableEq, Repr

/-- How many digits a range holds. -/
def DigitRange.count (r : DigitRange) : Nat := r.last + 1 - r.first

/-- The index is in the range. -/
abbrev DigitRange.holds (r : DigitRange) (i : Nat) : Prop := r.first ≤ i ∧ i ≤ r.last

/-- P used as a digit index: none when it names no digit (R125, R170). -/
def pointerDigit (p : Nibble) : Option Nat :=
  if p.toNat < 14 then some p.toNat else none

/-- `slice(code, P)` of R124; none where the slice names a digit that does not exist (R125). -/
def sliceRange (f : SliceCode) (p : Nibble) : Option DigitRange :=
  match f with
  | .p => (pointerDigit p).map fun i => ⟨i, i⟩
  | .m => some ⟨3, 12⟩
  | .x => some ⟨0, 2⟩
  | .w => some ⟨0, 13⟩
  | .wp => (pointerDigit p).map fun i => ⟨0, i⟩
  | .ms => some ⟨3, 13⟩
  | .xs => some ⟨2, 2⟩
  | .s => some ⟨13, 13⟩

/-- A status index as a bit of S: none for 12..15 (R164). -/
def statusIndex (n : Nibble) : Option Nat :=
  if n.toNat < 12 then some n.toNat else none

/-- `S[i]`. -/
def statusBit (s : StatusBits) (i : Nat) : Bool := s.getLsbD i

/-- `S[i] <- 1`. -/
def setStatusBit (s : StatusBits) (i : Nat) : StatusBits := s ||| (1#12 <<< i)

/-- `S[i] <- 0`. -/
def clearStatusBit (s : StatusBits) (i : Nat) : StatusBits := s &&& ~~~(1#12 <<< i)

end Sys2Proof.Machine
end

