-- ==== Sys2Proof/Machine/Flags.lean ====
section
/-! DEFINITION. CARRY and PREV_CARRY: the carry and borrow of a digit (R120, R121), the zero test (R133), the carry
sample (R91) and the branch predicate (R142). -/

namespace Sys2Proof.Machine

/-- The carry out of `add(x, y, cin)` (R120). -/
def addCarry (x y : Nibble) (cin : Bool) : Bool := decide (10 ≤ x.toNat + y.toNat + cin.toNat)

/-- The borrow out of `sub(x, y, bin)` (R121). -/
def subBorrow (x y : Nibble) (bin : Bool) : Bool := decide (x.toNat < y.toNat + bin.toNat)

/-- Whether some digit at `i`, …, `i + n - 1` is nonzero. -/
def anyNonzeroFrom (x : Reg) : Nat → Nat → Bool
  | _, 0 => false
  | i, n + 1 => decide (x.digit i ≠ 0) || anyNonzeroFrom x (i + 1) n

/-- `AnyNonzero(X)` over a slice (R133). -/
def anyNonzero (r : DigitRange) (x : Reg) : Bool := anyNonzeroFrom x r.first r.count

/-- The carry sample at the start of a cycle: `PREV_CARRY <- CARRY; CARRY <- 0` (R91). -/
def State.sampleCarry (s : State) : State := { s with prevCarry := s.carry, carry := false }

/-- The branch predicate: a branch is taken when `PREV_CARRY != 1` (R142). -/
def State.branchTaken (s : State) : Bool := !s.prevCarry

end Sys2Proof.Machine
end

