-- ==== Sys2Proof/Machine/Alu.lean ====
section
/-! DEFINITION. The BCD primitives and the slice loops of 40_bcd_alu_slices.md. -/

namespace Sys2Proof.Machine

/-- Decimal add with carry: `(s mod 16, cout)` (R120, R122). -/
def bcdAdd (x y : Nibble) (cin : Bool) : Nibble × Bool :=
  let s := x.toNat + y.toNat + cin.toNat
  (BitVec.ofNat 4 (if addCarry x y cin then s - 10 else s), addCarry x y cin)

/-- Decimal subtract with borrow: `(d mod 16, bout)`, the remainder non-negative (R121, R122). -/
def bcdSub (x y : Nibble) (bin : Bool) : Nibble × Bool :=
  let d : Int := (x.toNat : Int) - y.toNat - bin.toNat
  (BitVec.ofInt 4 (if subBorrow x y bin then d + 10 else d), subBorrow x y bin)

/-- The digit loop of R127 over `n` digits from index `i`: the running carry goes through `op`, and each result digit
is written to `d`. The sources are the registers before the instruction, as R127 allows. -/
def carryLoop (op : Nibble → Nibble → Bool → Nibble × Bool) (x y : Reg) : Nat → Nat → Bool → Reg → Reg × Bool
  | _, 0, k, d => (d, k)
  | i, n + 1, k, d =>
    let r := op (x.digit i) (y.digit i) k
    carryLoop op x y (i + 1) n r.2 (d.setDigit i r.1)

/-- `AddSlice(X, Y, D, seed)`: the new D and CARRY (R127). -/
def addSlice (r : DigitRange) (x y d : Reg) (seed : Bool) : Reg × Bool :=
  carryLoop bcdAdd x y r.first r.count seed d

/-- `SubSlice(X, Y, D, seed)`: the new D and CARRY (R127). -/
def subSlice (r : DigitRange) (x y d : Reg) (seed : Bool) : Reg × Bool :=
  carryLoop bcdSub x y r.first r.count seed d

/-- Writes `g i` to each digit `i` of `n` digits from index `i`. -/
def writeDigits (g : Nat → Nibble) : Nat → Nat → Reg → Reg
  | _, 0, d => d
  | i, n + 1, d => writeDigits g (i + 1) n (d.setDigit i (g i))

/-- `Copy(X, D)` over a slice (R131): the new D. Two copies of the old values make `Exchange` (R131). -/
def copySlice (r : DigitRange) (x d : Reg) : Reg := writeDigits x.digit r.first r.count d

/-- `Clear(D)` over a slice (R131). -/
def clearSlice (r : DigitRange) (d : Reg) : Reg := writeDigits (fun _ => 0) r.first r.count d

/-- `ShiftLeft(X)` over a slice: toward the higher index, 0 into `first` (R132). -/
def shiftLeft (r : DigitRange) (x : Reg) : Reg :=
  writeDigits (fun i => if i = r.first then 0 else x.digit (i - 1)) r.first r.count x

/-- `ShiftRight(X)` over a slice: toward the lower index, 0 into `last` (R132). -/
def shiftRight (r : DigitRange) (x : Reg) : Reg :=
  writeDigits (fun i => if i = r.last then 0 else x.digit (i + 1)) r.first r.count x

end Sys2Proof.Machine
end

