-- ==== Sys2Proof/Machine/Display.lean ====
section
/-! DEFINITION. The display projector (60_exceptions.md R273 to R275). -/

namespace Sys2Proof.Machine

/-- `GLYPH(v)` (R275). -/
def glyphOf (k : Config) (v : Nibble) : Byte := k.glyph[v.toNat]?.getD cellBlank

/-- A sign cell: minus when the nibble is 8..15 (R273). -/
def signCell (v : Nibble) : Byte := if 8 ≤ v.toNat then cellMinus else cellBlank

/-- `Cell(i)`: digit `i` of A with its flag nibble of B (R273). -/
def digitCell (k : Config) (a b : Reg) (i : Nat) : Byte :=
  if 8 ≤ (b.digit i).toNat then cellBlank
  else if b.digit i = 2 then glyphOf k (a.digit i) ||| cellDp
  else glyphOf k (a.digit i)

/-- `Project(A, B)`: the eight cells, cell 0 leftmost (R273). -/
def project (k : Config) (a b : Reg) : Vector Byte 8 :=
  if 8 ≤ (b.digit 0).toNat then
    #v[signCell (a.digit 13), digitCell k a b 12, digitCell k a b 11, digitCell k a b 10,
       digitCell k a b 9, digitCell k a b 8, digitCell k a b 7, digitCell k a b 6]
  else
    #v[signCell (a.digit 13), digitCell k a b 12, digitCell k a b 11, digitCell k a b 10,
       digitCell k a b 9, signCell (a.digit 2), digitCell k a b 1, digitCell k a b 0]

end Sys2Proof.Machine
end

