-- ==== Sys2Proof/Machine/Ops.lean ====
section
/-! DEFINITION. The named operations the cycle and the meanings share: the ROM image, the model fault, the key
transfer, the frame capture and the skeleton of the arithmetic family. -/

namespace Sys2Proof.Machine

/-! ### The ROM image (20_memory.md) -/

/-- The image's form: indices strictly rising, so that equal images are equal lists. -/
abbrev Memory.wf (m : Memory) : Prop := m.Pairwise fun x y => x.1 < y.1

/-- The byte at an index; none where the image holds no byte (R63). -/
def Memory.read : Memory → Nat → Option Byte
  | [], _ => none
  | (k, v) :: m, i => if k = i then some v else Memory.read m i

/-- Puts a byte at an index. No instruction does this (R60); it serves the loading of an image. -/
def Memory.write : Memory → Nat → Byte → Memory
  | [], i, v => [(i, v)]
  | (k, u) :: m, i, v =>
    if i < k then (i, v) :: (k, u) :: m
    else if i = k then (i, v) :: m
    else (k, u) :: Memory.write m i v

/-- The image of a sequence of bytes, the first at index `i` (R62). -/
def Memory.ofBytes : Nat → List Byte → Memory
  | _, [] => []
  | i, v :: vs => (i, v) :: Memory.ofBytes (i + 1) vs

/-- Every byte H (even index) has bits 7..2 at 0 (R62). -/
def Memory.highBitsClear (m : Memory) : Bool :=
  m.all fun x => decide (x.1 % 2 = 1) || decide (x.2.extractLsb' 2 6 = 0)

/-- The byte index of H of the word at (bank, address): `bank * 512 + a * 2` (R62). -/
def romIndex (bank : Bank) (a : Byte) : Nat := bank.toNat * 512 + a.toNat * 2

/-- The byte pair (H, L) at (bank, address): none for a bank that is not populated, or where the image does not hold
both bytes (R63). -/
def State.romPair (s : State) (bank : Bank) (a : Byte) : Option (Byte × Byte) :=
  if bank.toNat < s.cfg.romBanks then
    match s.rom.read (romIndex bank a), s.rom.read (romIndex bank a + 1) with
    | some h, some l => some (h, l)
    | _, _ => none
  else none

/-- `RomWord(bank, a)` (R63). -/
def State.romWord (s : State) (bank : Bank) (a : Byte) : Option MicroWord :=
  (s.romPair bank a).map fun x => pairWord x.1 x.2

/-! ### Model faults (60_exceptions.md R261) -/

/-- `raise Fault(kind)`: FAULT receives the record of the fetch in progress, FRAME is 0, and nothing else is written.
There is no vector, no saved state and no return from it (R264); only a reset clears FAULT. -/
def State.raise (s : State) (kind : FaultKind) : State :=
  { s with
    fault := some ⟨kind, s.fetched.bank, s.fetched.addr, s.fetched.word⟩
    frame := false }

/-! ### The stages of the microcycle (30_encoding.md R90) -/

/-- The key latch holds a key (R36). -/
def State.keyLatched (s : State) : Bool := decide (s.latch ≠ latchEmpty)

/-- Step 1, the key transfer (R265). -/
def State.keyTransfer (s : State) : State :=
  { s with
    keyRom := if s.keyLatched then s.latch else s.keyRom
    keyValid := s.keyLatched || s.keyValid
    status := if s.keyLatched then setStatusBit s.status 0 else s.status
    latch := if s.keyLatched then latchEmpty else s.latch }

/-- Steps 1 and 2: the key transfer, then the carry sample (R90). -/
def State.beginCycle (s : State) : State := s.keyTransfer.sampleCarry

/-- The fetch in progress is (OFFSET, PC) with the word fetched there (R92). -/
def State.noteFetch (s : State) (w : Option MicroWord) : State :=
  { s with fetched := ⟨s.offset, s.pc, w⟩ }

/-- Step 4: `PC <- (PC + 1) mod 256`; OFFSET does not change (R93). -/
def State.incrementPc (s : State) : State := { s with pc := s.pc + 1 }

/-- DE fell in the execute stage: it was 1 before it and is 0 after it (R37). -/
def State.displayFell (s : State) (de0 : Bool) : Bool := de0 && !s.de

/-- Step 6: the frame capture on the falling edge of DE (R271, R272). -/
def State.captureFrame (s : State) (de0 : Bool) : State :=
  { s with
    fb := if s.displayFell de0 then project s.cfg s.a s.b else s.fb
    upd := s.displayFell de0 || s.upd
    frame := s.displayFell de0 }

/-- Bank 0 address 191 is the next fetch (R280). -/
def State.atErrorAddress (s : State) : Bool := decide (s.offset = 0 ∧ s.pc = 191)

/-- Step 7: the error signal (R280). -/
def State.updateErr (s : State) : State := { s with err := s.atErrorAddress }

/-- No cycle is in progress any more (the model's own field). -/
def State.endFetch (s : State) : State := { s with fetched := Fetched.idle }

/-- The end of a cycle: steps 6 and 7, unless the execute stage raised a fault (R261). -/
def State.endCycle (s : State) (de0 : Bool) : State :=
  if s.fault.isSome then s.endFetch else (s.captureFrame de0).updateErr.endFetch

/-- The cycle's fetch faults (R262): the steps before it stay done, PC is not incremented. -/
def State.fetchFault (s : State) : State := ((s.noteFetch none).raise .fetchUnpopulated).endFetch

/-! ### The arithmetic skeleton (44_arithmetic.md R200) -/

/-- `ExecArith` of R200 for an opcode whose body, given its slice, answers the next state: PointerRange is checked
first, then Unmodelled for a general-knowledge opcode (`gk`), both before anything is written. -/
def arith (gk : Bool) (f : SliceCode) (s : State) (body : DigitRange → State) : Result :=
  match sliceRange f s.p with
  | none => .next (s.raise .pointerRange)
  | some r => if gk = true ∧ s.cfg.gkOps = .refuses then .next (s.raise .unmodelled) else .next (body r)

/-- The body of a status instruction, run on the bit that `n` names (R164). -/
def onStatusBit (n : Nibble) (s : State) (body : Nat → State) : Result :=
  match statusIndex n with
  | none => .next (s.raise .statusIndex)
  | some i => .next (body i)

end Sys2Proof.Machine
end

