-- ==== Sys2Proof/Machine/Arithmetic.lean ====
section
/-! DEFINITION. The 32 arithmetic opcodes (44_arithmetic.md R202 to R233). The first argument of `arith` says that the
opcode takes its meaning from general knowledge (R201). A test is a loop whose destination is dropped (R127). -/

namespace Sys2Proof.Machine

/-- `TST B<>0 [f]` (R202). -/
def execTstB (f : SliceCode) (s : State) : Result :=
  arith true f s fun r =>
    { s with carry := anyNonzero r s.b }

/-- `0->B [f]` (R203). -/
def execClrB (f : SliceCode) (s : State) : Result :=
  arith true f s fun r =>
    { s with b := clearSlice r s.b }

/-- `A-C->T [f]` (R204). -/
def execSubACtoT (f : SliceCode) (s : State) : Result :=
  arith false f s fun r =>
    let z := subSlice r s.a s.c s.t false
    { s with t := z.1, carry := z.2 }

/-- `TST C-1 [f]` (R205). -/
def execTstDecC (f : SliceCode) (s : State) : Result :=
  arith true f s fun r =>
    { s with carry := (subSlice r s.c Reg.zero s.c true).2 }

/-- `B->C [f]` (R206). -/
def execMovBC (f : SliceCode) (s : State) : Result :=
  arith false f s fun r =>
    { s with c := copySlice r s.b s.c }

/-- `0-C->C [f]` (R207). -/
def execNegC (f : SliceCode) (s : State) : Result :=
  arith false f s fun r =>
    let z := subSlice r Reg.zero s.c s.c false
    { s with c := z.1, carry := z.2 }

/-- `0->C [f]` (R208). -/
def execClrC (f : SliceCode) (s : State) : Result :=
  arith false f s fun r =>
    { s with c := clearSlice r s.c }

/-- `0-C-1->C [f]` (R209). -/
def execNineC (f : SliceCode) (s : State) : Result :=
  arith true f s fun r =>
    let z := subSlice r Reg.zero s.c s.c true
    { s with c := z.1, carry := z.2 }

/-- `SHL A [f]` (R210). -/
def execShlA (f : SliceCode) (s : State) : Result :=
  arith false f s fun r =>
    { s with a := shiftLeft r s.a }

/-- `A->B [f]` (R211). -/
def execMovAB (f : SliceCode) (s : State) : Result :=
  arith false f s fun r =>
    { s with b := copySlice r s.a s.b }

/-- `A-C->C [f]` (R212). -/
def execSubACtoC (f : SliceCode) (s : State) : Result :=
  arith false f s fun r =>
    let z := subSlice r s.a s.c s.c false
    { s with c := z.1, carry := z.2 }

/-- `C-1->C [f]` (R213). -/
def execDecC (f : SliceCode) (s : State) : Result :=
  arith true f s fun r =>
    let z := subSlice r s.c Reg.zero s.c true
    { s with c := z.1, carry := z.2 }

/-- `C->A [f]` (R214). -/
def execMovCA (f : SliceCode) (s : State) : Result :=
  arith false f s fun r =>
    { s with a := copySlice r s.c s.a }

/-- `TST C<>0 [f]` (R215). -/
def execTstC (f : SliceCode) (s : State) : Result :=
  arith true f s fun r =>
    { s with carry := anyNonzero r s.c }

/-- `A+C->C [f]` (R216). -/
def execAddACtoC (f : SliceCode) (s : State) : Result :=
  arith false f s fun r =>
    let z := addSlice r s.a s.c s.c false
    { s with c := z.1, carry := z.2 }

/-- `C+1->C [f]` (R217). -/
def execIncC (f : SliceCode) (s : State) : Result :=
  arith false f s fun r =>
    let z := addSlice r s.c Reg.zero s.c true
    { s with c := z.1, carry := z.2 }

/-- `A-B->T [f]` (R218). -/
def execSubABtoT (f : SliceCode) (s : State) : Result :=
  arith false f s fun r =>
    let z := subSlice r s.a s.b s.t false
    { s with t := z.1, carry := z.2 }

/-- `B<->C [f]` (R219). -/
def execXchBC (f : SliceCode) (s : State) : Result :=
  arith false f s fun r =>
    { s with b := copySlice r s.c s.b, c := copySlice r s.b s.c }

/-- `SHR C [f]` (R220). -/
def execShrC (f : SliceCode) (s : State) : Result :=
  arith false f s fun r =>
    { s with c := shiftRight r s.c }

/-- `TST A-1 [f]` (R221). -/
def execTstDecA (f : SliceCode) (s : State) : Result :=
  arith false f s fun r =>
    { s with carry := (subSlice r s.a Reg.zero s.a true).2 }

/-- `SHR B [f]` (R222). -/
def execShrB (f : SliceCode) (s : State) : Result :=
  arith false f s fun r =>
    { s with b := shiftRight r s.b }

/-- `C+C->C [f]` (R223). -/
def execDblC (f : SliceCode) (s : State) : Result :=
  arith false f s fun r =>
    let z := addSlice r s.c s.c s.c false
    { s with c := z.1, carry := z.2 }

/-- `SHR A [f]` (R224). -/
def execShrA (f : SliceCode) (s : State) : Result :=
  arith false f s fun r =>
    { s with a := shiftRight r s.a }

/-- `0->A [f]` (R225). -/
def execClrA (f : SliceCode) (s : State) : Result :=
  arith false f s fun r =>
    { s with a := clearSlice r s.a }

/-- `A-B->A [f]` (R226). -/
def execSubABtoA (f : SliceCode) (s : State) : Result :=
  arith false f s fun r =>
    let z := subSlice r s.a s.b s.a false
    { s with a := z.1, carry := z.2 }

/-- `A<->B [f]` (R227). -/
def execXchAB (f : SliceCode) (s : State) : Result :=
  arith false f s fun r =>
    { s with a := copySlice r s.b s.a, b := copySlice r s.a s.b }

/-- `A-C->A [f]` (R228). -/
def execSubACtoA (f : SliceCode) (s : State) : Result :=
  arith false f s fun r =>
    let z := subSlice r s.a s.c s.a false
    { s with a := z.1, carry := z.2 }

/-- `A-1->A [f]` (R229). -/
def execDecA (f : SliceCode) (s : State) : Result :=
  arith false f s fun r =>
    let z := subSlice r s.a Reg.zero s.a true
    { s with a := z.1, carry := z.2 }

/-- `A+B->A [f]` (R230). -/
def execAddABtoA (f : SliceCode) (s : State) : Result :=
  arith false f s fun r =>
    let z := addSlice r s.a s.b s.a false
    { s with a := z.1, carry := z.2 }

/-- `A<->C [f]` (R231). -/
def execXchAC (f : SliceCode) (s : State) : Result :=
  arith false f s fun r =>
    { s with a := copySlice r s.c s.a, c := copySlice r s.a s.c }

/-- `A+C->A [f]` (R232). -/
def execAddACtoA (f : SliceCode) (s : State) : Result :=
  arith false f s fun r =>
    let z := addSlice r s.a s.c s.a false
    { s with a := z.1, carry := z.2 }

/-- `A+1->A [f]` (R233). -/
def execIncA (f : SliceCode) (s : State) : Result :=
  arith false f s fun r =>
    let z := addSlice r s.a Reg.zero s.a true
    { s with a := z.1, carry := z.2 }

end Sys2Proof.Machine
end

