-- ==== Sys2Proof/Machine/Control.lean ====
section
/-! DEFINITION. Control transfer (41_control_transfer.md) and the UNDEFINED words (30_encoding.md R99). PC is already
incremented when a meaning runs (R93). -/

namespace Sys2Proof.Machine

/-- `CALL a`: `RET <- PC; PC <- a` (R140). -/
def execCall (a : Byte) (s : State) : Result := .next { s with ret := s.pc, pc := a }

/-- `BRNC a`: taken when `PREV_CARRY != 1` (R142). -/
def execBrnc (a : Byte) (s : State) : Result :=
  .next { s with pc := if s.branchTaken then a else s.pc }

/-- `RET`: `PC <- RET` (R144). -/
def execRet (s : State) : Result := .next { s with pc := s.ret }

/-- `SELROM b`: `OFFSET <- b`, also for a bank that is not populated (R145). -/
def execSelrom (b : Bank) (s : State) : Result := .next { s with offset := b }

/-- `KEYJMP`: faults when no key was transferred; else `PC <- KEY_ROM; S[0] <- 0; KEY_VALID <- 0` (R147). -/
def execKeyjmp (s : State) : Result :=
  if s.keyValid then
    .next { s with pc := s.keyRom, status := clearStatusBit s.status 0, keyValid := false }
  else .next (s.raise .staleKey)

/-- An UNDEFINED word: a no-op, or `Fault(Undefined)` under `TRAP_ON_UNDEFINED = true` (R99). The low byte selects
nothing (R98). -/
def execUndefined (_l : Byte) (s : State) : Result :=
  if s.cfg.trapOnUndefined then .next (s.raise .undefinedWord) else .next s

end Sys2Proof.Machine
end

