-- ==== Sys2Proof/Machine/Moves.lean ====
section
/-! DEFINITION. The special moves and the display latch (43_moves_display.md). -/

namespace Sys2Proof.Machine

/-- `XCM`: exchange C and M (R181). -/
def execXcm (s : State) : Result := .next { s with c := s.m, m := s.c }

/-- `PUSH`: `(F, E, D) <- (E, D, C)` (R182). -/
def execPush (s : State) : Result := .next { s with f := s.e, e := s.d, d := s.c }

/-- `POP`: `(A, D, E) <- (D, E, F)` (R183). -/
def execPop (s : State) : Result := .next { s with a := s.d, d := s.e, e := s.f }

/-- `MTOC`: `C <- M` (R184). -/
def execMtoc (s : State) : Result := .next { s with c := s.m }

/-- `ROT`: `(C, D, E, F) <- (D, E, F, C)`, or `(D, E, F, C) <- (C, D, E, F)` under `ROTATE_READING = arrow` (R185). -/
def execRot (s : State) : Result :=
  match s.cfg.rotate with
  | .down => .next { s with c := s.d, d := s.e, e := s.f, f := s.c }
  | .arrow => .next { s with d := s.c, e := s.d, f := s.e, c := s.f }

/-- `CLREG`: A, B, C, D, E, F and M become 0 (R186). -/
def execClreg (s : State) : Result :=
  .next { s with
    a := Reg.zero, b := Reg.zero, c := Reg.zero, d := Reg.zero, e := Reg.zero, f := Reg.zero, m := Reg.zero }

/-- `DE <- 0; UPD <- 0` (R187). -/
def State.displayOff (s : State) : State := { s with de := false, upd := false }

/-- `DE <- not DE` (R188). -/
def State.displayToggle (s : State) : State := { s with de := !s.de }

/-- `DISPOFF` (R187); under `DISPLAY_SEQUENTIAL = true` it disables and then toggles (R188). -/
def execDispoff (s : State) : Result :=
  .next (if s.cfg.displaySequential then s.displayOff.displayToggle else s.displayOff)

/-- `DISPTOG` (R188); under `DISPLAY_SEQUENTIAL = true` it disables and then toggles. -/
def execDisptog (s : State) : Result :=
  .next (if s.cfg.displaySequential then s.displayOff.displayToggle else s.displayToggle)

end Sys2Proof.Machine
end

