-- ==== Sys2Proof/Machine/StatusPointer.lean ====
section
/-! DEFINITION. Status bits, pointer and constant load (42_status_pointer.md). -/

namespace Sys2Proof.Machine

/-- `TSTS n`: `CARRY <- S[n]` (R160, R164). -/
def execTsts (n : Nibble) (s : State) : Result :=
  onStatusBit n s fun i => { s with carry := statusBit s.status i }

/-- `SETS n`: `S[n] <- 1` (R161, R164). -/
def execSets (n : Nibble) (s : State) : Result :=
  onStatusBit n s fun i => { s with status := setStatusBit s.status i }

/-- `CLRS n`: `S[n] <- 0` (R162, R164). -/
def execClrs (n : Nibble) (s : State) : Result :=
  onStatusBit n s fun i => { s with status := clearStatusBit s.status i }

/-- `CLRST`: every status bit 0 (R163). -/
def execClrst (s : State) : Result := .next { s with status := 0 }

/-- `TSTP n`: `CARRY <- (P == n)` (R165). -/
def execTstp (n : Nibble) (s : State) : Result := .next { s with carry := decide (s.p = n) }

/-- `SETP n`: `P <- n` (R166). -/
def execSetp (n : Nibble) (s : State) : Result := .next { s with p := n }

/-- `INCP`: `P <- (P + 1) mod 16` (R167). -/
def execIncp (s : State) : Result := .next { s with p := s.p + 1 }

/-- `DECP`: `P <- (P - 1) mod 16` (R168). -/
def execDecp (s : State) : Result := .next { s with p := s.p - 1 }

/-- `LDC k`: `C[P] <- k; P <- (P - 1) mod 16`, or `Fault(PointerRange)` where C has no digit P (R170). -/
def execLdc (k : Nibble) (s : State) : Result :=
  match pointerDigit s.p with
  | none => .next (s.raise .pointerRange)
  | some i => .next { s with c := s.c.setDigit i k, p := s.p - 1 }

end Sys2Proof.Machine
end

