-- ==== Sys2Proof/Machine/Dispatch.lean ====
section
/-! DEFINITION. One arm per instruction: each is one call of its meaning. -/

namespace Sys2Proof.Machine

/-- The execute stage (R94): the decoded instruction runs its rule. -/
def exec (i : Instr) (s : State) : Host.Outcome State Fault Refusal :=
  match i with
  | .call a => Sys2Proof.Machine.execCall a s
  | .brnc a => Sys2Proof.Machine.execBrnc a s
  | .tstB f => Sys2Proof.Machine.execTstB f s
  | .clrB f => Sys2Proof.Machine.execClrB f s
  | .subACtoT f => Sys2Proof.Machine.execSubACtoT f s
  | .tstDecC f => Sys2Proof.Machine.execTstDecC f s
  | .movBC f => Sys2Proof.Machine.execMovBC f s
  | .negC f => Sys2Proof.Machine.execNegC f s
  | .clrC f => Sys2Proof.Machine.execClrC f s
  | .nineC f => Sys2Proof.Machine.execNineC f s
  | .shlA f => Sys2Proof.Machine.execShlA f s
  | .movAB f => Sys2Proof.Machine.execMovAB f s
  | .subACtoC f => Sys2Proof.Machine.execSubACtoC f s
  | .decC f => Sys2Proof.Machine.execDecC f s
  | .movCA f => Sys2Proof.Machine.execMovCA f s
  | .tstC f => Sys2Proof.Machine.execTstC f s
  | .addACtoC f => Sys2Proof.Machine.execAddACtoC f s
  | .incC f => Sys2Proof.Machine.execIncC f s
  | .subABtoT f => Sys2Proof.Machine.execSubABtoT f s
  | .xchBC f => Sys2Proof.Machine.execXchBC f s
  | .shrC f => Sys2Proof.Machine.execShrC f s
  | .tstDecA f => Sys2Proof.Machine.execTstDecA f s
  | .shrB f => Sys2Proof.Machine.execShrB f s
  | .dblC f => Sys2Proof.Machine.execDblC f s
  | .shrA f => Sys2Proof.Machine.execShrA f s
  | .clrA f => Sys2Proof.Machine.execClrA f s
  | .subABtoA f => Sys2Proof.Machine.execSubABtoA f s
  | .xchAB f => Sys2Proof.Machine.execXchAB f s
  | .subACtoA f => Sys2Proof.Machine.execSubACtoA f s
  | .decA f => Sys2Proof.Machine.execDecA f s
  | .addABtoA f => Sys2Proof.Machine.execAddABtoA f s
  | .xchAC f => Sys2Proof.Machine.execXchAC f s
  | .addACtoA f => Sys2Proof.Machine.execAddACtoA f s
  | .incA f => Sys2Proof.Machine.execIncA f s
  | .ret => Sys2Proof.Machine.execRet s
  | .selrom b => Sys2Proof.Machine.execSelrom b s
  | .keyjmp => Sys2Proof.Machine.execKeyjmp s
  | .tsts n => Sys2Proof.Machine.execTsts n s
  | .sets n => Sys2Proof.Machine.execSets n s
  | .clrs n => Sys2Proof.Machine.execClrs n s
  | .clrst => Sys2Proof.Machine.execClrst s
  | .tstp n => Sys2Proof.Machine.execTstp n s
  | .setp n => Sys2Proof.Machine.execSetp n s
  | .incp => Sys2Proof.Machine.execIncp s
  | .decp => Sys2Proof.Machine.execDecp s
  | .ldc k => Sys2Proof.Machine.execLdc k s
  | .xcm => Sys2Proof.Machine.execXcm s
  | .push => Sys2Proof.Machine.execPush s
  | .pop => Sys2Proof.Machine.execPop s
  | .mtoc => Sys2Proof.Machine.execMtoc s
  | .rot => Sys2Proof.Machine.execRot s
  | .clreg => Sys2Proof.Machine.execClreg s
  | .dispoff => Sys2Proof.Machine.execDispoff s
  | .disptog => Sys2Proof.Machine.execDisptog s
  | .undefined l => Sys2Proof.Machine.execUndefined l s

end Sys2Proof.Machine
end

