-- ==== Sys2Proof/Machine/Step.lean ====
section
/-! DEFINITION. One microcycle (30_encoding.md R90), and a state whose next fetch is a given word. -/

namespace Sys2Proof.Machine

/-- `Cycle()` of R90. A state whose FAULT holds a record makes no step; a fetch that has no word takes the fetch
fault; else the decoded instruction runs and the cycle ends. -/
def step (s : State) : Host.Outcome State Fault Refusal :=
  match s.fault with
  | some r => .fault (.stuck r)
  | none =>
    let s1 := s.beginCycle
    match s1.romPair s1.offset s1.pc with
    | none => .next s1.fetchFault
    | some (h, l) =>
      match decode [h, l] with
      | .refused _ => .refused .imageHighBits
      | .instr i _ =>
        match exec i (s1.noteFetch (some (pairWord h l))).incrementPc with
        | .next s2 => .next (s2.endCycle s1.de)
        | .fault r => .fault r
        | .refused r => .refused r

/-- `s` with the word `w` in the image at (OFFSET, PC), H at the lower index (R62): the next step fetches it. -/
def State.withFetchWord (s : State) (nbits w : Nat) : State :=
  let v := BitVec.ofNat 16 (w % 2 ^ nbits)
  { s with
    rom := (s.rom.write (romIndex s.offset s.pc) (v.extractLsb' 8 8)).write
      (romIndex s.offset s.pc + 1) (v.extractLsb' 0 8) }

end Sys2Proof.Machine
end

