-- ==== Sys2Proof/Machine/Ports.lean ====
section
/-! DEFINITION. The block's ports as the host uses them between microcycles (60_exceptions.md R285, R290 to R293;
70_reset_and_hazards.md R300 to R303), the key codes of R266, and runs of core and host steps (R325). -/

namespace Sys2Proof.Machine

/-- The 35 keys of R266. -/
inductive Key where
  | clr | exp | ln | log | pow | rcl | sto | rot | swap | inv | d6 | d5 | d4 | add | d3 | d2 | d1 | mult | pi | dot
  | d0 | div | tan | cos | sin | arc | sqrt | d9 | d8 | d7 | sub | clx | eex | chs | enter
  deriving DecidableEq, Repr

/-- The key code of a key (R266). -/
def Key.code : Key → Byte
  | .clr => 0
  | .exp => 2
  | .ln => 3
  | .log => 4
  | .pow => 6
  | .rcl => 8
  | .sto => 10
  | .rot => 11
  | .swap => 12
  | .inv => 14
  | .d6 => 18
  | .d5 => 19
  | .d4 => 20
  | .add => 22
  | .d3 => 26
  | .d2 => 27
  | .d1 => 28
  | .mult => 30
  | .pi => 34
  | .dot => 35
  | .d0 => 36
  | .div => 38
  | .tan => 40
  | .cos => 42
  | .sin => 43
  | .arc => 44
  | .sqrt => 46
  | .d9 => 50
  | .d8 => 51
  | .d7 => 52
  | .sub => 54
  | .clx => 56
  | .eex => 58
  | .chs => 59
  | .enter => 62

/-- One host action between two cycles. -/
inductive HostAction where
  /-- `LATCH <- v` (R291). -/
  | keyWrite (v : Byte)
  /-- `UPD <- 0` (R292). -/
  | acknowledge
  /-- The reset event (R300). -/
  | reset
  deriving DecidableEq, Repr

/-- Host key write: the new code replaces the old one (R291). -/
def State.keyWrite (s : State) (v : Byte) : State := { s with latch := v }

/-- Host acknowledge (R292). -/
def State.acknowledge (s : State) : State := { s with upd := false }

/-- The reset event: every piece of state takes its reset value; the image and the parameters stay (R72, R300). -/
def State.resetEvent (s : State) : State := { State.reset with rom := s.rom, cfg := s.cfg }

/-- One host action (R290): a code 0x00..0xFE is written whether or not it is in the table of R266 (R293); 0xFF is no
key code (R267). -/
def hostStep (h : HostAction) (s : State) : Result :=
  match h with
  | .keyWrite v => if v = latchEmpty then .refused .emptyKeyCode else .next (s.keyWrite v)
  | .acknowledge => .next s.acknowledge
  | .reset => .next s.resetEvent

/-- The host's duty on a key write: the code is one of R266 (R293). -/
def HostAction.dutiful : HostAction → Prop
  | .keyWrite v => ∃ k : Key, k.code = v
  | .acknowledge => True
  | .reset => True

/-- Power-on with an image and parameters (R303): image, reset, then cycles. An image that holds an H byte with
`H[7:2]` not 0 is refused before any cycle (R62). -/
def powerOn (k : Config) (image : List Byte) : Result :=
  if k.wf then
    if k.romBanks * 512 < image.length then .refused .imageTooLong
    else if (Memory.ofBytes 0 image).highBitsClear then
      .next { State.reset with rom := Memory.ofBytes 0 image, cfg := k }
    else .refused .imageHighBits
  else .refused .badConfig

/-- One event of a run: a core step or a host action (R290). -/
inductive Event where
  | cycle
  | host (h : HostAction)
  deriving DecidableEq, Repr

/-- One event. -/
def eventStep (e : Event) (s : State) : Result :=
  match e with
  | .cycle => step s
  | .host h => hostStep h s

/-- A run: core and host steps in any order, up to the first stop (R325). -/
def runEvents : List Event → State → Result
  | [], s => .next s
  | e :: es, s =>
    match eventStep e s with
    | .next s' => runEvents es s'
    | .fault r => .fault r
    | .refused r => .refused r

end Sys2Proof.Machine
end

