-- ==== Sys2Proof/Safety.lean ====
section
/-! DEFINITION. The terms the claims use: what a sound state is, which model fault an instruction raises by the spec's
table (60_exceptions.md R261), which instructions write what (10_state.md), and the decimal value of a slice (R129). -/

namespace Sys2Proof.Machine

/-! ### The instruction families -/

/-- For an arithmetic instruction: whether its meaning is from general knowledge (R201), and its slice code. -/
def arithmeticForm : Instr → Option (Bool × SliceCode)
  | .tstB f => some (true, f)
  | .clrB f => some (true, f)
  | .subACtoT f => some (false, f)
  | .tstDecC f => some (true, f)
  | .movBC f => some (false, f)
  | .negC f => some (false, f)
  | .clrC f => some (false, f)
  | .nineC f => some (true, f)
  | .shlA f => some (false, f)
  | .movAB f => some (false, f)
  | .subACtoC f => some (false, f)
  | .decC f => some (true, f)
  | .movCA f => some (false, f)
  | .tstC f => some (true, f)
  | .addACtoC f => some (false, f)
  | .incC f => some (false, f)
  | .subABtoT f => some (false, f)
  | .xchBC f => some (false, f)
  | .shrC f => some (false, f)
  | .tstDecA f => some (false, f)
  | .shrB f => some (false, f)
  | .dblC f => some (false, f)
  | .shrA f => some (false, f)
  | .clrA f => some (false, f)
  | .subABtoA f => some (false, f)
  | .xchAB f => some (false, f)
  | .subACtoA f => some (false, f)
  | .decA f => some (false, f)
  | .addABtoA f => some (false, f)
  | .xchAC f => some (false, f)
  | .addACtoA f => some (false, f)
  | .incA f => some (false, f)
  | .call _ | .brnc _ | .ret | .selrom _ | .keyjmp => none
  | .tsts _ | .sets _ | .clrs _ | .clrst | .tstp _ | .setp _ | .incp | .decp | .ldc _ => none
  | .xcm | .push | .pop | .mtoc | .rot | .clreg | .dispoff | .disptog | .undefined _ => none

/-- The family of an instruction (R81). -/
def familyOf (i : Instr) : Family :=
  match i with
  | .call _ => .call
  | .brnc _ => .branch
  | _ => if (arithmeticForm i).isSome then .arithmetic else .misc

/-! ### Model faults -/

/-- P names no digit (R125, R170). -/
abbrev State.pointerOut (s : State) : Prop := 14 ≤ s.p.toNat

/-- The model fault an arithmetic instruction raises, if any: PointerRange for slice codes 0 and 4 when P is 14 or 15,
else Unmodelled for a general-knowledge opcode under `GK_OPS = refuse` (R125, R200, R201, R263). -/
def arithFault (gk : Bool) (f : SliceCode) (s : State) : Option FaultKind :=
  if (f = .p ∨ f = .wp) ∧ s.pointerOut then some .pointerRange
  else if gk = true ∧ s.cfg.gkOps = .refuses then some .unmodelled
  else none

/-- The model fault of the table of R261 that an instruction raises in a state, if any. -/
def faultOf (i : Instr) (s : State) : Option FaultKind :=
  match arithmeticForm i with
  | some (gk, f) => arithFault gk f s
  | none =>
    match i with
    | .tsts n | .sets n | .clrs n => if 12 ≤ n.toNat then some .statusIndex else none
    | .ldc _ => if s.pointerOut then some .pointerRange else none
    | .keyjmp => if s.keyValid then none else some .staleKey
    | .undefined _ => if s.cfg.trapOnUndefined then some .undefinedWord else none
    | _ => none

/-! ### Who writes what (10_state.md R22, R24 to R38) -/

/-- The carry-writing instructions: 19 arithmetic opcodes (R235), TSTS and TSTP (R32). -/
def writesCarry : Instr → Bool
  | .tstB _ => true
  | .subACtoT _ => true
  | .tstDecC _ => true
  | .negC _ => true
  | .nineC _ => true
  | .subACtoC _ => true
  | .decC _ => true
  | .tstC _ => true
  | .addACtoC _ => true
  | .incC _ => true
  | .subABtoT _ => true
  | .tstDecA _ => true
  | .dblC _ => true
  | .subABtoA _ => true
  | .subACtoA _ => true
  | .decA _ => true
  | .addABtoA _ => true
  | .addACtoA _ => true
  | .incA _ => true
  | .tsts _ | .tstp _ => true
  | _ => false

/-- The writers of A (R22). -/
def writesA : Instr → Bool
  | .shlA _ | .movCA _ | .shrA _ | .clrA _ | .subABtoA _ | .xchAB _ | .subACtoA _ | .decA _
  | .addABtoA _ | .xchAC _ | .addACtoA _ | .incA _ | .pop | .clreg => true
  | _ => false

/-- The writers of B (R22). -/
def writesB : Instr → Bool
  | .clrB _ | .movAB _ | .xchBC _ | .shrB _ | .xchAB _ | .clreg => true
  | _ => false

/-- The writers of C (R22). -/
def writesC : Instr → Bool
  | .movBC _ | .negC _ | .clrC _ | .nineC _ | .subACtoC _ | .decC _ | .addACtoC _ | .incC _
  | .xchBC _ | .shrC _ | .dblC _ | .xchAC _ | .ldc _ | .xcm | .mtoc | .rot | .clreg => true
  | _ => false

/-- The writers of D and of E (R22). -/
def writesD : Instr → Bool
  | .push | .pop | .rot | .clreg => true
  | _ => false

/-- The writers of F (R22). -/
def writesF : Instr → Bool
  | .push | .rot | .clreg => true
  | _ => false

/-- The writers of M (R22). -/
def writesM : Instr → Bool
  | .xcm | .clreg => true
  | _ => false

/-- The writers of T (R22, R24). -/
def writesT : Instr → Bool
  | .subACtoT _ | .subABtoT _ => true
  | _ => false

/-- The instructions that write S (R26). -/
def writesStatus : Instr → Bool
  | .sets _ | .clrs _ | .clrst | .keyjmp => true
  | _ => false

/-- The writers of P (R28). -/
def writesPointer : Instr → Bool
  | .setp _ | .incp | .decp | .ldc _ => true
  | _ => false

/-- The instructions that write PC in the execute stage (R29, R93). -/
def writesPc : Instr → Bool
  | .call _ | .brnc _ | .ret | .keyjmp => true
  | _ => false

/-- The instructions that write DE or UPD (R37, R38). -/
def writesDisplay : Instr → Bool
  | .dispoff | .disptog => true
  | _ => false

/-! ### BCD digits and the value of a slice -/

/-- Every digit of the range is a BCD digit, 0..9. -/
def bcdOn (r : DigitRange) (x : Reg) : Prop := ∀ i, r.holds i → (x.digit i).toNat ≤ 9

/-- Every digit of the register is a BCD digit. -/
def bcdReg (x : Reg) : Prop := ∀ i, (x.digit i).toNat ≤ 9

/-- Every register holds BCD digits only. -/
def State.allBcd (s : State) : Prop :=
  bcdReg s.a ∧ bcdReg s.b ∧ bcdReg s.c ∧ bcdReg s.d ∧ bcdReg s.e ∧ bcdReg s.f ∧ bcdReg s.m ∧ bcdReg s.t

/-- The decimal value of `n` digits from index `i`. -/
def digitsVal (x : Reg) : Nat → Nat → Nat
  | _, 0 => 0
  | i, n + 1 => (x.digit i).toNat + 10 * digitsVal x (i + 1) n

/-- `val(X)` over a slice (R129). -/
def sliceVal (r : DigitRange) (x : Reg) : Nat := digitsVal x r.first r.count

/-- The register `y` is `x` but for the digits of the range (R128). -/
def keepsOutside (r : DigitRange) (x y : Reg) : Prop := ∀ i, ¬ r.holds i → y.digit i = x.digit i

/-- The digit loop of R127, said of its result: a running carry starts at `seed`, each digit of the range consumes and
produces it in ascending order, and it ends as `k`; `digit i` is the digit produced at index `i`. -/
def carryChain (op : Nibble → Nibble → Bool → Nibble × Bool) (r : DigitRange) (x y : Reg) (seed : Bool)
    (digit : Nat → Nibble) (k : Bool) : Prop :=
  ∃ c : Nat → Bool, c r.first = seed ∧ c (r.last + 1) = k ∧
    ∀ i, r.holds i → op (x.digit i) (y.digit i) (c i) = (digit i, c (i + 1))

/-- `z` is the destination `d` after the digit loop on `x` and `y`, and `k` is CARRY (R127, R128). -/
def loopResult (op : Nibble → Nibble → Bool → Nibble × Bool) (r : DigitRange) (x y d : Reg) (seed : Bool)
    (z : Reg) (k : Bool) : Prop :=
  carryChain op r x y seed z.digit k ∧ keepsOutside r d z

/-! ### Sound states -/

/-- No model fault is recorded: the state has a next cycle (R325). -/
def State.running (s : State) : Prop := s.fault = none

/-- What every step and every host action keeps: the image keeps its form and its H bytes their zeros (R62), the
parameters stay legal (R9), no cycle is in progress between steps, a valid key code is never 0xFF (R267), FRAME is 1
only with DE at 0 and FB the projection of A and B (R271, R272), ERR shows the error address (R280), and a fault
record has a word exactly when the fetch did not fault (R261). -/
structure State.Sound (s : State) : Prop where
  romForm : s.rom.wf
  romHigh : s.rom.highBitsClear = true
  config : s.cfg.wf
  idle : s.fetched = Fetched.idle
  key : s.keyValid = true → s.keyRom ≠ latchEmpty
  frame : s.frame = true → s.de = false ∧ s.fb = project s.cfg s.a s.b
  err : s.fault = none → s.err = s.atErrorAddress
  record : ∀ r, s.fault = some r → (r.word = none ↔ r.kind = .fetchUnpopulated)

end Sys2Proof.Machine
end

