-- ==== Sys2Proof/Certificates/Slice0/Obligations.lean ====
section
/-! DEFINITION. The statements for the provers. Each docstring names the rules of spec/ it formalises; where a clause
rests on a decision or a derivation of the spec, or on a choice of the model, it says so. -/

section

open Sys2Proof Sys2Proof.Machine

/-! ### Encoding and decoding -/

/-- Decode and encode agree on every instruction, every operand at every value its field admits, whatever bytes follow
(R85, R105, R106; the canonical words are the spec's notation, decision D24). -/
def Obligations.DecodeOfEncode : Prop :=
  ∀ (i : Instr) (rest : List Byte), i.wellFormed = true → decode (encode i ++ rest) = .instr i rest

/-- The other direction: what decodes is well-formed, leaves the bytes after its pair, and encodes to its own word but
for the bits that its format ignores (R84, R85, R100). That the encoder writes 0 in those bits is the spec's notation
(R105, decision D24, log entry 23); that `w[9:8]` of an UNDEFINED word are such bits is R98, in the model's form (log
entry 6). -/
def Obligations.EncodeOfDecode : Prop :=
  ∀ (h l : Byte) (rest rest' : List Byte) (i : Instr), decode (h :: l :: rest) = .instr i rest' →
    rest' = rest ∧ i.wellFormed = true ∧ encodeWord i = pairWord h l &&& ~~~ignoredBits i

/-- The family of every word is read from `w[1:0]` (R81). -/
def Obligations.FamilyOfWord : Prop :=
  ∀ w : MicroWord,
    (w.extractLsb' 0 2 = 0b01 → familyOf (decodeWord w) = .call) ∧
    (w.extractLsb' 0 2 = 0b10 → familyOf (decodeWord w) = .arithmetic) ∧
    (w.extractLsb' 0 2 = 0b11 → familyOf (decodeWord w) = .branch) ∧
    (w.extractLsb' 0 2 = 0b00 → familyOf (decodeWord w) = .misc)

/-- The arithmetic opcode map: the word `(op << 5) | (code << 2) | 2` decodes to the opcode's instruction with the
slice code `code` (R88, R200; the rows of R201 are from general knowledge). -/
def Obligations.ArithmeticWordsDecode : Prop :=
  ∀ f : SliceCode, ∀ x ∈ [
    (0x00, Instr.tstB f), (0x01, .clrB f), (0x02, .subACtoT f), (0x03, .tstDecC f),
    (0x04, .movBC f), (0x05, .negC f), (0x06, .clrC f), (0x07, .nineC f),
    (0x08, .shlA f), (0x09, .movAB f), (0x0A, .subACtoC f), (0x0B, .decC f),
    (0x0C, .movCA f), (0x0D, .tstC f), (0x0E, .addACtoC f), (0x0F, .incC f),
    (0x10, .subABtoT f), (0x11, .xchBC f), (0x12, .shrC f), (0x13, .tstDecA f),
    (0x14, .shrB f), (0x15, .dblC f), (0x16, .shrA f), (0x17, .clrA f),
    (0x18, .subABtoA f), (0x19, .xchAB f), (0x1A, .subACtoA f), (0x1B, .decA f),
    (0x1C, .addABtoA f), (0x1D, .xchAC f), (0x1E, .addACtoA f), (0x1F, .incA f)],
    decodeWord (BitVec.ofNat 10 (x.1 * 32 + f.bits.toNat * 4 + 2)) = x.2

/-- The UNDEFINED words are exactly the miscellaneous-family words with one of the 19 low bytes (R98, derived by the
spec from R85). -/
def Obligations.UndefinedWordsExactly : Prop :=
  ∀ (w : MicroWord) (l : Byte), decodeWord w = .undefined l ↔
    w.extractLsb' 0 2 = 0 ∧ w.extractLsb' 0 8 = l ∧
      l ∈ ([0x00, 0x08, 0x20, 0x40, 0x48, 0x50, 0x60, 0x68, 0x70, 0x78,
            0x80, 0x88, 0xA0, 0xC0, 0xC8, 0xE0, 0xE8, 0xF0, 0xF8] : List Byte)

/-- A few words, written bit by bit from the formats of R84, decode to their instructions. -/
def Obligations.SampleWordsDecode : Prop :=
  decodeWord 0b1100010101#10 = .call 0xC5 ∧
  decodeWord 0b0011101011#10 = .brnc 0x3A ∧
  decodeWord 0b0111001110#10 = .addACtoC .w ∧
  decodeWord 0b1110110000#10 = .ret ∧
  decodeWord 0b0100010000#10 = .selrom 2 ∧
  decodeWord 0b1111010000#10 = .keyjmp ∧
  decodeWord 0b0101010100#10 = .tsts 5 ∧
  decodeWord 0b1101101100#10 = .tstp 13 ∧
  decodeWord 0b1001011000#10 = .ldc 9 ∧
  decodeWord 0b0110111000#10 = .pop ∧
  decodeWord 0b1000101000#10 = .disptog ∧
  decodeWord 0b1110001000#10 = .undefined 0x88

/-- Bytes that hold no word are refused by name: fewer than two, or an H with a bit of 7..2 set (R62, decision D2; that
the decoder is where it happens is the model's choice, log entry 7). -/
def Obligations.DecodeRefusals : Prop :=
  decode [] = .refused .truncated ∧ (∀ h : Byte, decode [h] = .refused .truncated) ∧
  ∀ (h l : Byte) (rest : List Byte), h.extractLsb' 2 6 ≠ 0 → decode (h :: l :: rest) = .refused .highBits

/-! ### The microcycle -/

/-- A step runs the decoded instruction: with the key transfer and the carry sample done, the fetch noted and PC
incremented, it is `exec` and then the end of the cycle (R90, R94; the order is decision D30). -/
def Obligations.StepRunsDecodedInstruction : Prop :=
  ∀ (s t : State) (h l : Byte) (i : Instr),
    s.fault = none → s.romPair s.offset s.pc = some (h, l) → decode [h, l] = .instr i [] →
    exec i (s.beginCycle.noteFetch (some (pairWord h l))).incrementPc = .next t →
    step s = .next (t.endCycle s.de)

/-- A fetch with no word takes the fetch fault: the key transfer and the carry sample stay done, PC is not incremented,
and FAULT records the bank and the address with no word; a bank that is not populated has no word anywhere (R63, R261,
R262, decisions D6 and D27). -/
def Obligations.FetchFaultTakesNoInstruction : Prop :=
  ∀ s : State, s.fault = none →
    (s.romPair s.offset s.pc = none →
      step s = .next { s.beginCycle with
        fault := some ⟨.fetchUnpopulated, s.offset, s.pc, none⟩, frame := false, fetched := Fetched.idle }) ∧
    (s.cfg.romBanks ≤ s.offset.toNat → s.romPair s.offset s.pc = none)

/-- A faulted state makes no further step (R90, R261, decision D27). -/
def Obligations.FaultedStateIsStuck : Prop :=
  ∀ (s : State) (r : FaultRecord), s.fault = some r → step s = .fault (.stuck r)

/-- Every instruction that raises none of the model faults of R261 answers a next state with FAULT as it was. -/
def Obligations.ExecCompletesUnlessFault : Prop :=
  ∀ (i : Instr) (s : State), faultOf i s = none → ∃ t, exec i s = .next t ∧ t.fault = s.fault

/-- An instruction that raises a model fault writes no state but FAULT, which receives the kind, the bank, the address
and the word of the fetch, and FRAME, which is 0; PointerRange comes before Unmodelled (R261, R263, decision D27). -/
def Obligations.ExecRaisesTheFault : Prop :=
  ∀ (i : Instr) (s : State) (k : FaultKind), faultOf i s = some k →
    exec i s = .next { s with
      fault := some ⟨k, s.fetched.bank, s.fetched.addr, s.fetched.word⟩, frame := false }

/-- The core never halts: with an image that R62 admits, every state that is not faulted has a next cycle (R325). -/
def Obligations.RunningStateHasNextCycle : Prop :=
  ∀ s : State, s.fault = none → s.rom.highBitsClear = true → ∃ t, step s = .next t

/-- Every cycle keeps a sound state sound: the image's form and zeros, legal parameters, no fetch left over, a valid
key code never 0xFF, FRAME only with DE at 0 and FB the projection of A and B, ERR at the error address, and the
record's word (R62, R261, R267, R271, R272, R280). The model's own: the image's sorted form (log entry 1), the
parameters as a field (2), FRAME and ERR as fields (4), the idle fetch (5). The spec's decisions: the zeros of the H
bytes D2 (7), the glyphs without bit 7 D18 (20), the latch's 0xFF and KEY_VALID D19 and D20 (21), FRAME of the capture
cycle only D31 and ERR as a level D22 (18), the record D27 (3). -/
def Obligations.StepKeepsSound : Prop :=
  ∀ s t : State, s.Sound → step s = .next t → t.Sound

/-- The state after reset is sound. It rests on decision D23 for KEY_VALID and FAULT (R46, R300, log entry 10), and on
the model's empty image (log entry 1), default parameters (2), FRAME and ERR as fields (4) and idle fetch (5). -/
def Obligations.ResetSound : Prop := State.reset.Sound

/-- Every host action keeps a sound state sound (R290 to R292, R300). That the host acts between steps by a function
of its own is decision D26 (log entry 9), the refused code 0xFF is log entry 8, the reset values are decision D23 (log
entry 10), and that the reset event keeps the image and the parameters is the model's form (log entries 1 and 2). -/
def Obligations.HostActionsKeepSound : Prop :=
  ∀ (h : HostAction) (s t : State), s.Sound → hostStep h s = .next t → t.Sound

/-! ### Reset and the image -/

/-- At power-on reset every register of the register file is zero (R45). -/
def Obligations.ResetRegisterFile : Prop :=
  (∀ x ∈ [State.reset.a, State.reset.b, State.reset.c, State.reset.d, State.reset.e, State.reset.f, State.reset.m,
      State.reset.t], ∀ i, i < 14 → x.digit i = 0) ∧
  (∀ i, i < 12 → statusBit State.reset.status i = false) ∧
  State.reset.p = 0 ∧ State.reset.pc = 0 ∧ State.reset.ret = 0 ∧ State.reset.offset = 0 ∧
  State.reset.carry = false ∧ State.reset.prevCarry = false

/-- The remaining state at reset, and the reset event: from any state it gives the reset state, with the image and the
parameters kept (R46, R300, R302; the values other than KEY_ROM are the spec's decision D23; that the image and the
parameters are fields a reset event keeps is the model's form, log entries 1 and 2). -/
def Obligations.ResetOtherStateAndEvent : Prop :=
  State.reset.keyRom = 0 ∧ State.reset.keyValid = false ∧ State.reset.latch = 0xFF ∧ State.reset.de = false ∧
  State.reset.upd = false ∧ (∀ i (h : i < 8), State.reset.fb[i] = 0x00) ∧ State.reset.fault = none ∧
  State.reset.frame = false ∧ State.reset.err = false ∧
  ∀ s : State, ∃ t, hostStep .reset s = .next t ∧ t = { State.reset with rom := s.rom, cfg := s.cfg }

/-- Power-on with an image of `ROM_BANKS` banks whose H bytes are clear gives the reset state with that image: the word
at (bank, address) is the big-endian pair at `bank * 512 + a * 2`, and a bank that is not populated has no word (R62,
R63, R303, decisions D1 and D2). -/
def Obligations.PowerOnLoadsTheImage : Prop :=
  ∀ (k : Config) (image : List Byte), k.wf → image.length = k.romBanks * 512 →
    (∀ (i : Nat) (v : Byte), image[2 * i]? = some v → v.extractLsb' 2 6 = 0) →
    ∃ t, powerOn k image = .next t ∧ t = { State.reset with rom := t.rom, cfg := k } ∧
      ∀ (bank : Bank) (a : Byte),
        (bank.toNat < k.romBanks → ∃ h l, t.romPair bank a = some (h, l) ∧
          image[bank.toNat * 512 + a.toNat * 2]? = some h ∧ image[bank.toNat * 512 + a.toNat * 2 + 1]? = some l) ∧
        (k.romBanks ≤ bank.toNat → t.romPair bank a = none)

/-- An image with an H byte whose bits 7..2 are not all 0 is refused before any cycle (R62, decision D2). -/
def Obligations.PowerOnRefusesHighBits : Prop :=
  ∀ (k : Config) (image : List Byte) (i : Nat) (v : Byte), k.wf → image.length ≤ k.romBanks * 512 →
    image[2 * i]? = some v → v.extractLsb' 2 6 ≠ 0 → powerOn k image = .refused .imageHighBits

/-- Reading the image after a byte is put in it: the byte at its index, every other index as before. The spec has no
write of the image (R15, R60): `Memory.write` is the model's own and serves `State.withFetchWord`, which stands for
loading a program from outside the machine (log entry 1). -/
def Obligations.ImageReadAfterWrite : Prop :=
  ∀ (m : Memory) (i j : Nat) (v : Byte), m.wf →
    (m.write i v).read j = if j = i then some v else m.read j

/-! ### The key latch and the carry -/

/-- The key transfer: a full latch sets S[0] and KEY_VALID before the fetch, copies the code to KEY_ROM and leaves
S[1..11]; an empty latch leaves S, KEY_VALID and KEY_ROM; beside these the start of the cycle changes only the latch,
which it empties, and the carry pair; and every cycle ends with the latch empty and KEY_ROM the code, or as it was
when the latch was empty (R26, R34 to R36, R91, R265). KEY_VALID and the latch's 0xFF are decisions D20 and D19 (log
entry 21), the carry sample at the start of every cycle is D4 and D30 (log entry 11). -/
def Obligations.CycleMovesTheKey : Prop :=
  (∀ s : State, s.latch ≠ 0xFF →
    statusBit s.beginCycle.status 0 = true ∧ s.beginCycle.keyValid = true ∧ s.beginCycle.keyRom = s.latch ∧
    ∀ j, 1 ≤ j → j < 12 → statusBit s.beginCycle.status j = statusBit s.status j) ∧
  (∀ s : State, s.latch = 0xFF →
    s.beginCycle.status = s.status ∧ s.beginCycle.keyValid = s.keyValid ∧ s.beginCycle.keyRom = s.keyRom) ∧
  (∀ s : State, s.beginCycle = { s with
    status := s.beginCycle.status, keyValid := s.beginCycle.keyValid, keyRom := s.beginCycle.keyRom, latch := 0xFF,
    prevCarry := s.carry, carry := false }) ∧
  ∀ s t : State, step s = .next t →
    t.latch = 0xFF ∧ t.keyRom = if s.latch = 0xFF then s.keyRom else s.latch

/-- The host's two actions between cycles: a key write puts any code but 0xFF in the latch, over what was there, an
acknowledge clears UPD, and neither touches anything else (R267, R290 to R292, decisions D15, D19, D26). A write of
0xFF, which R267 says cannot be delivered, is refused by name: the model's choice (log entry 8). -/
def Obligations.HostWritesLatchAndUpd : Prop :=
  ∀ s : State,
    (∀ v : Byte, v ≠ 0xFF → hostStep (.keyWrite v) s = .next { s with latch := v }) ∧
    hostStep (.keyWrite 0xFF) s = .refused .emptyKeyCode ∧
    hostStep .acknowledge s = .next { s with upd := false }

/-- PREV_CARRY after a cycle is the CARRY of the cycle before it (R33, R91, R143, decision D4). -/
def Obligations.PrevCarryIsPreviousCarry : Prop :=
  ∀ s t : State, step s = .next t → t.prevCarry = s.carry

/-- Only the carry-writing instructions write CARRY in the execute stage, so any other leaves the 0 of the carry sample
(R32, R91, R235, decision D4). -/
def Obligations.CarryOnlyFromCarryWriters : Prop :=
  (∀ (i : Instr) (s t : State), writesCarry i = false → exec i s = .next t → t.carry = s.carry) ∧
  ∀ s : State, s.beginCycle.carry = false

/-- A branch is decided by the carry of the immediately preceding cycle: a cycle that fetches `BRNC a` goes to `a` when
CARRY was 0 at its start and to the next address when it was 1, in the same bank (R142, R143, R310). -/
def Obligations.BranchFollowsPreviousCycle : Prop :=
  ∀ (s : State) (h l a : Byte), s.fault = none → s.romPair s.offset s.pc = some (h, l) →
    decode [h, l] = .instr (.brnc a) [] →
    ∃ t, step s = .next t ∧ t.pc = (if s.carry then s.pc + 1 else a) ∧ t.offset = s.offset ∧ t.carry = false

/-! ### Who writes what -/

/-- The working registers, M and T change only by the instructions that R22 lists as their writers (R22, R24, R25;
T by decision D12). -/
def Obligations.WorkingRegisterWriters : Prop :=
  ∀ (i : Instr) (s t : State), exec i s = .next t →
    (writesA i = false → t.a = s.a) ∧ (writesB i = false → t.b = s.b) ∧ (writesC i = false → t.c = s.c) ∧
    (writesD i = false → t.d = s.d ∧ t.e = s.e) ∧ (writesF i = false → t.f = s.f) ∧
    (writesM i = false → t.m = s.m) ∧ (writesT i = false → t.t = s.t)

/-- S, P, PC, RET and OFFSET change in the execute stage only by their writers (R26, R28 to R31, R93). -/
def Obligations.ControlRegisterWriters : Prop :=
  ∀ (i : Instr) (s t : State), exec i s = .next t →
    (writesStatus i = false → t.status = s.status) ∧ (writesPointer i = false → t.p = s.p) ∧
    (writesPc i = false → t.pc = s.pc) ∧ ((∀ a, i ≠ .call a) → t.ret = s.ret) ∧
    ((∀ b, i ≠ .selrom b) → t.offset = s.offset)

/-- No instruction writes the image (read byte by byte), the parameters, PREV_CARRY, KEY_ROM, the latch, FB, ERR or
the noted fetch; DE and UPD change only by the display instructions, KEY_VALID only by KEYJMP, and FRAME only with a
fault (R33 to R40, R60, R72, R261, R272, R280). FRAME and ERR as fields (log entry 4), the parameters as a field (2)
and the noted fetch (5) are the model's own. -/
def Obligations.ExecLeavesTheRest : Prop :=
  ∀ (i : Instr) (s t : State), exec i s = .next t →
    (∀ n, t.rom.read n = s.rom.read n) ∧ t.cfg = s.cfg ∧ t.prevCarry = s.prevCarry ∧ t.keyRom = s.keyRom ∧
    t.latch = s.latch ∧ t.fb = s.fb ∧ t.err = s.err ∧ t.fetched = s.fetched ∧
    (writesDisplay i = false → t.de = s.de ∧ t.upd = s.upd) ∧ (i ≠ .keyjmp → t.keyValid = s.keyValid) ∧
    (faultOf i s = none → t.frame = s.frame)

/-! ### Control transfer -/

/-- `CALL a`: RET receives the incremented PC and PC becomes `a`; nothing else changes (R140, decision D3). -/
def Obligations.CallResult : Prop :=
  ∀ (a : Byte) (s : State), exec (.call a) s = .next { s with ret := s.pc, pc := a }

/-- `BRNC a`, `w[1:0] = 0b11` with `a = w[9:2]`: taken when PREV_CARRY is not 1, else PC keeps the incremented value;
nothing else changes (R142). -/
def Obligations.BranchResult : Prop :=
  (∀ w : MicroWord, w.extractLsb' 0 2 = 0b11 → decodeWord w = .brnc (w.extractLsb' 2 8)) ∧
  ∀ (a : Byte) (s : State),
    (s.prevCarry = false → exec (.brnc a) s = .next { s with pc := a }) ∧
    (s.prevCarry = true → exec (.brnc a) s = .next s)

/-- `RET`, `w[6:0] = 0b0110000` with `w[9:7]` ignored: PC becomes RET; nothing else changes, OFFSET among it (R144). -/
def Obligations.ReturnResult : Prop :=
  (∀ w : MicroWord, w.extractLsb' 0 7 = 0b0110000 → decodeWord w = .ret) ∧
  ∀ s : State, exec .ret s = .next { s with pc := s.ret }

/-- `SELROM b`: OFFSET becomes `b`, also for a bank that is not populated; PC keeps the incremented value (R145, R146,
decisions D5 and D6). -/
def Obligations.BankSelectResult : Prop :=
  ∀ (b : Bank) (s : State), exec (.selrom b) s = .next { s with offset := b }

/-- `KEYJMP` with a key transferred: PC becomes KEY_ROM, S[0] and KEY_VALID become 0, the other status bits stay; with
none it raises StaleKey (R147, decision D20). -/
def Obligations.KeyJumpResult : Prop :=
  ∀ s : State,
    (s.keyValid = true → ∃ u, exec .keyjmp s = .next { s with pc := s.keyRom, status := u, keyValid := false } ∧
      ∀ j, j < 12 → statusBit u j = if j = 0 then false else statusBit s.status j) ∧
    (s.keyValid = false → exec .keyjmp s = .next (s.raise .staleKey))

/-! ### Status bits, pointer, constant load -/

/-- TSTS, SETS and CLRS on the bit `n`, 0..11: CARRY takes the bit, or that one bit becomes 1 or 0 (R160 to R162); an
index 12..15 raises StatusIndex (R164, decision D8). -/
def Obligations.StatusBitResults : Prop :=
  ∀ (n : Nibble) (s : State),
    (n.toNat < 12 →
      exec (.tsts n) s = .next { s with carry := s.status.getLsbD n.toNat } ∧
      (∃ u, exec (.sets n) s = .next { s with status := u } ∧
        ∀ j, j < 12 → u.getLsbD j = if j = n.toNat then true else s.status.getLsbD j) ∧
      ∃ u, exec (.clrs n) s = .next { s with status := u } ∧
        ∀ j, j < 12 → u.getLsbD j = if j = n.toNat then false else s.status.getLsbD j) ∧
    (12 ≤ n.toNat →
      exec (.tsts n) s = .next (s.raise .statusIndex) ∧ exec (.sets n) s = .next (s.raise .statusIndex) ∧
      exec (.clrs n) s = .next (s.raise .statusIndex))

/-- `CLRST`, `w[5:0] = 0x34` with `w[9:6]` ignored: all 12 status bits become 0; nothing else changes, KEY_ROM and
KEY_VALID among it (R163). -/
def Obligations.ClearStatusResult : Prop :=
  (∀ w : MicroWord, w.extractLsb' 0 6 = 0x34 → decodeWord w = .clrst) ∧
  ∀ s : State, ∃ u, exec .clrst s = .next { s with status := u } ∧ ∀ j, j < 12 → u.getLsbD j = false

/-- TSTP, SETP, INCP and DECP with their encodings: CARRY is 1 exactly when P is `n`; P becomes `n`, also 14 or 15; P
counts up or down modulo 16; nothing else changes (R165 to R168). -/
def Obligations.PointerResults : Prop :=
  (∀ w : MicroWord,
    (w.extractLsb' 0 6 = 0x2C → decodeWord w = .tstp (w.extractLsb' 6 4)) ∧
    (w.extractLsb' 0 6 = 0x0C → decodeWord w = .setp (w.extractLsb' 6 4)) ∧
    (w.extractLsb' 0 6 = 0x3C → decodeWord w = .incp) ∧
    (w.extractLsb' 0 6 = 0x1C → decodeWord w = .decp)) ∧
  ∀ (n : Nibble) (s : State),
    (∃ k, exec (.tstp n) s = .next { s with carry := k } ∧ (k = true ↔ s.p = n)) ∧
    exec (.setp n) s = .next { s with p := n } ∧
    (∃ q : Nibble, exec .incp s = .next { s with p := q } ∧ q.toNat = (s.p.toNat + 1) % 16) ∧
    ∃ q : Nibble, exec .decp s = .next { s with p := q } ∧ q.toNat = (s.p.toNat + 15) % 16

/-- `LDC k` with P in 0..13: the digit of C at P becomes `k`, any of 0..15, the other digits stay, and P counts down
modulo 16; with P at 14 or 15 it raises PointerRange (R170, decision D7). -/
def Obligations.LoadConstantResult : Prop :=
  ∀ (k : Nibble) (s : State),
    (s.p.toNat < 14 → ∃ z q, exec (.ldc k) s = .next { s with c := z, p := q } ∧
      z.digit s.p.toNat = k ∧ (∀ i, i ≠ s.p.toNat → z.digit i = s.c.digit i) ∧ q.toNat = (s.p.toNat + 15) % 16) ∧
    (14 ≤ s.p.toNat → exec (.ldc k) s = .next (s.raise .pointerRange))

/-! ### Special moves and the display -/

/-- XCM, PUSH, POP, MTOC and CLREG with their encodings (`w[4]` ignored): the tuple assignments of R181 to R184 and
the seven zeros of R186; nothing else changes. The round trips are the spec's own derivations: XCM twice restores
(from R181), PUSH then POP restores D and E and leaves F the old E (R189, conflict C6 against the source's words), and
a second CLREG does nothing (R189). -/
def Obligations.RegisterMoves : Prop :=
  (∀ w : MicroWord,
    (w.extractLsb' 0 8 &&& 0xEF = 0xA8 → w.extractLsb' 8 2 = 0 → decodeWord w = .xcm) ∧
    (w.extractLsb' 0 8 &&& 0xEF = 0x28 → w.extractLsb' 8 2 = 1 → decodeWord w = .push) ∧
    (w.extractLsb' 0 8 &&& 0xEF = 0xA8 → w.extractLsb' 8 2 = 1 → decodeWord w = .pop) ∧
    (w.extractLsb' 0 8 &&& 0xEF = 0xA8 → w.extractLsb' 8 2 = 2 → decodeWord w = .mtoc) ∧
    (w.extractLsb' 0 8 &&& 0xEF = 0xA8 → w.extractLsb' 8 2 = 3 → decodeWord w = .clreg)) ∧
  ∀ s : State,
    (∃ t, exec .xcm s = .next t ∧ t = { s with c := s.m, m := s.c } ∧ exec .xcm t = .next s) ∧
    (∃ t, exec .push s = .next t ∧ t = { s with f := s.e, e := s.d, d := s.c } ∧
      exec .pop t = .next { s with a := s.c, f := s.e }) ∧
    exec .pop s = .next { s with a := s.d, d := s.e, e := s.f } ∧
    exec .mtoc s = .next { s with c := s.m } ∧
    ∃ (z : Reg) (t : State), (∀ i, z.digit i = 0) ∧
      t = { s with a := z, b := z, c := z, d := z, e := z, f := z, m := z } ∧
      exec .clreg s = .next t ∧ exec .clreg t = .next t

/-- `ROT` under both readings (R185, decision D13). -/
def Obligations.RotateResult : Prop :=
  ∀ s : State,
    (s.cfg.rotate = .down → exec .rot s = .next { s with c := s.d, d := s.e, e := s.f, f := s.c }) ∧
    (s.cfg.rotate = .arrow → exec .rot s = .next { s with d := s.c, e := s.d, f := s.e, c := s.f })

/-- DISPOFF and DISPTOG under both values of DISPLAY_SEQUENTIAL (R187, R188, decisions D14 and D15). -/
def Obligations.DisplayInstructionResults : Prop :=
  ∀ s : State,
    (s.cfg.displaySequential = false →
      exec .dispoff s = .next { s with de := false, upd := false } ∧ exec .disptog s = .next { s with de := !s.de }) ∧
    (s.cfg.displaySequential = true →
      exec .dispoff s = .next { s with de := true, upd := false } ∧
      exec .disptog s = .next { s with de := true, upd := false })

/-- The round trips of R189 (derived by the spec from R181 to R186), run one after another. -/
def Obligations.SpecialMoveRoundTrips : Prop :=
  ∀ s : State,
    (∃ t u, exec .push s = .next t ∧ exec .pop t = .next u ∧
      u = { s with a := s.c, d := s.d, e := s.e, f := s.e }) ∧
    (∃ t, exec .xcm s = .next t ∧ exec .xcm t = .next s) ∧
    (∃ t u, exec .mtoc s = .next t ∧ exec .xcm t = .next u ∧ u = { s with c := s.m }) ∧
    (∃ t, exec .clreg s = .next t ∧ exec .clreg t = .next t) ∧
    ∃ t u v, exec .rot s = .next t ∧ exec .rot t = .next u ∧ exec .rot u = .next v ∧ exec .rot v = .next s

/-- The frame capture: a cycle whose execute stage raised no fault captures exactly when DE was 1 before it and is 0
after it; then FB is the projection of A and B, UPD and FRAME are 1; else FB and UPD are as the instruction left them
and FRAME is 0. The end of the cycle writes nothing beside FB, UPD, FRAME and ERR (R271 to R273, R280, decisions D15,
D16, D22, D31, log entry 18), but for the model's own fetch field, which goes idle (log entry 5); FRAME and ERR are
fields by log entry 4. -/
def Obligations.CaptureOnFallingEdge : Prop :=
  ∀ (s u : State) (h l : Byte) (i : Instr),
    s.fault = none → s.romPair s.offset s.pc = some (h, l) → decode [h, l] = .instr i [] →
    exec i (s.beginCycle.noteFetch (some (pairWord h l))).incrementPc = .next u → u.fault = none →
    ∃ t, step s = .next t ∧
      (s.de = true ∧ u.de = false → t.fb = project s.cfg u.a u.b ∧ t.upd = true ∧ t.frame = true) ∧
      (¬ (s.de = true ∧ u.de = false) → t.fb = u.fb ∧ t.upd = u.upd ∧ t.frame = false) ∧
      t = { u with fb := t.fb, upd := t.upd, frame := t.frame, err := t.err, fetched := Fetched.idle }

/-- The error signal: after a cycle that recorded no fault ERR is 1 exactly when the next fetch is bank 0 address 191;
a cycle that recorded one leaves ERR as it was and FRAME at 0 (R280, R261). That ERR is a level recomputed after every
cycle is decision D22 (log entry 18), that a fault leaves it is decision D27 (log entry 3), and both outputs are
fields by log entry 4. -/
def Obligations.ErrorSignalOfCycle : Prop :=
  ∀ s t : State, step s = .next t →
    (t.fault = none → (t.err = true ↔ t.offset = 0 ∧ t.pc = 191)) ∧
    (t.fault ≠ none → t.err = s.err ∧ t.frame = false)

/-- The cells of the projection: a sign cell is minus for a nibble 8..15 and blank for 0..7; a digit cell is blank
under a flag 8..15, has bit 7 set under the flag 2, and is else the glyph; under legal parameters bit 7, the decimal
point, is set exactly under the flag 2; B[0] chooses the layout (R273 to R275, decisions D17 and D18, log entries 19
and 20; the minus bitmap is from general knowledge). -/
def Obligations.ProjectionCells : Prop :=
  ∀ (k : Config) (a b : Reg),
    (∀ v : Nibble, (8 ≤ v.toNat → signCell v = 0x40) ∧ (v.toNat < 8 → signCell v = 0x00)) ∧
    (∀ i, (8 ≤ (b.digit i).toNat → digitCell k a b i = 0x00) ∧
      ((b.digit i).toNat = 2 → digitCell k a b i = k.glyph[(a.digit i).toNat] ||| 0x80) ∧
      ((b.digit i).toNat < 8 → (b.digit i).toNat ≠ 2 → digitCell k a b i = k.glyph[(a.digit i).toNat]) ∧
      (k.wf → ((digitCell k a b i).getLsbD 7 = true ↔ (b.digit i).toNat = 2))) ∧
    (project k a b)[0] = signCell (a.digit 13) ∧
    (8 ≤ (b.digit 0).toNat → ∀ j (h : j < 8), 1 ≤ j → (project k a b)[j] = digitCell k a b (13 - j)) ∧
    ((b.digit 0).toNat < 8 →
      (∀ j (h : j < 8), 1 ≤ j → j ≤ 4 → (project k a b)[j] = digitCell k a b (13 - j)) ∧
      (project k a b)[5] = signCell (a.digit 2) ∧ (project k a b)[6] = digitCell k a b 1 ∧
      (project k a b)[7] = digitCell k a b 0)

/-- An UNDEFINED word changes nothing in the execute stage, or raises Undefined under TRAP_ON_UNDEFINED (R99, decision
D21). -/
def Obligations.UndefinedWordResult : Prop :=
  ∀ (l : Byte) (s : State),
    (s.cfg.trapOnUndefined = false → exec (.undefined l) s = .next s) ∧
    (s.cfg.trapOnUndefined = true → exec (.undefined l) s = .next (s.raise .undefinedWord))

/-! ### The arithmetic family -/

/-- The two primitives on every nibble: the sum or the difference, adjusted by ten, modulo 16, and the carry or borrow
(R120 to R122; modulo 16 is decision D9). -/
def Obligations.DigitPrimitives : Prop :=
  ∀ (x y : Nibble) (k : Bool),
    (bcdAdd x y k).1.toNat =
      (if 10 ≤ x.toNat + y.toNat + k.toNat then x.toNat + y.toNat + k.toNat - 10
        else x.toNat + y.toNat + k.toNat) % 16 ∧
    ((bcdAdd x y k).2 = true ↔ 10 ≤ x.toNat + y.toNat + k.toNat) ∧
    ((bcdSub x y k).1.toNat : Int) =
      (if (x.toNat : Int) - y.toNat - k.toNat < 0 then (x.toNat : Int) - y.toNat - k.toNat + 10
        else (x.toNat : Int) - y.toNat - k.toNat) % 16 ∧
    ((bcdSub x y k).2 = true ↔ (x.toNat : Int) - y.toNat - k.toNat < 0)

/-- The slice selector (R124): the code of an arithmetic word is `w[4:2]`, and it selects the table's range, the two
pointer-relative codes with P in 0..13 (past it, see R125), the six others for every P. -/
def Obligations.SliceSelectorTable : Prop :=
  (∀ w : MicroWord, w.extractLsb' 0 2 = 0b10 →
    ∃ gk, arithmeticForm (decodeWord w) = some (gk, SliceCode.ofBits (w.extractLsb' 2 3))) ∧
  ∀ p : Nibble,
    (p.toNat ≤ 13 → sliceRange (SliceCode.ofBits 0) p = some ⟨p.toNat, p.toNat⟩) ∧
    sliceRange (SliceCode.ofBits 1) p = some ⟨3, 12⟩ ∧
    sliceRange (SliceCode.ofBits 2) p = some ⟨0, 2⟩ ∧
    sliceRange (SliceCode.ofBits 3) p = some ⟨0, 13⟩ ∧
    (p.toNat ≤ 13 → sliceRange (SliceCode.ofBits 4) p = some ⟨0, p.toNat⟩) ∧
    sliceRange (SliceCode.ofBits 5) p = some ⟨3, 13⟩ ∧
    sliceRange (SliceCode.ofBits 6) p = some ⟨2, 2⟩ ∧
    sliceRange (SliceCode.ofBits 7) p = some ⟨13, 13⟩

/-- The zero test is 1 exactly when some digit of the slice is not 0, a nibble 10..15 counting as nonzero (R133). -/
def Obligations.AnyNonzeroMeansSomeDigit : Prop :=
  ∀ (r : DigitRange) (x : Reg), anyNonzero r x = true ↔ ∃ i, r.first ≤ i ∧ i ≤ r.last ∧ x.digit i ≠ 0

/-- The six adding opcodes run the digit loop of R127 with their operands, destination and seed; the digits outside the
slice and everything but the destination and CARRY stay (R216, R217, R223, R230, R232, R233, R128). -/
def Obligations.AddResults : Prop :=
  ∀ (f : SliceCode) (s : State) (r : DigitRange), sliceRange f s.p = some r →
    (∃ z k, exec (.addACtoC f) s = .next { s with c := z, carry := k } ∧
      loopResult bcdAdd r s.a s.c s.c false z k) ∧
    (∃ z k, exec (.addACtoA f) s = .next { s with a := z, carry := k } ∧
      loopResult bcdAdd r s.a s.c s.a false z k) ∧
    (∃ z k, exec (.addABtoA f) s = .next { s with a := z, carry := k } ∧
      loopResult bcdAdd r s.a s.b s.a false z k) ∧
    (∃ z k, exec (.dblC f) s = .next { s with c := z, carry := k } ∧
      loopResult bcdAdd r s.c s.c s.c false z k) ∧
    (∃ z k, exec (.incC f) s = .next { s with c := z, carry := k } ∧
      loopResult bcdAdd r s.c Reg.zero s.c true z k) ∧
    ∃ z k, exec (.incA f) s = .next { s with a := z, carry := k } ∧
      loopResult bcdAdd r s.a Reg.zero s.a true z k

/-- The nine subtracting opcodes that write a register, as above; `0-C-1->C` and `C-1->C` under GK_OPS = admit, their
meaning being from general knowledge (R204, R207, R209, R212, R213, R218, R226, R228, R229, R201, R128, R127). That
the two opcodes that write T keep T outside the slice is decision D12 (log entry 14). -/
def Obligations.SubtractResults : Prop :=
  ∀ (f : SliceCode) (s : State) (r : DigitRange), sliceRange f s.p = some r →
    (∃ z k, exec (.subACtoT f) s = .next { s with t := z, carry := k } ∧
      loopResult bcdSub r s.a s.c s.t false z k) ∧
    (∃ z k, exec (.negC f) s = .next { s with c := z, carry := k } ∧
      loopResult bcdSub r Reg.zero s.c s.c false z k) ∧
    (∃ z k, exec (.subACtoC f) s = .next { s with c := z, carry := k } ∧
      loopResult bcdSub r s.a s.c s.c false z k) ∧
    (∃ z k, exec (.subABtoT f) s = .next { s with t := z, carry := k } ∧
      loopResult bcdSub r s.a s.b s.t false z k) ∧
    (∃ z k, exec (.subABtoA f) s = .next { s with a := z, carry := k } ∧
      loopResult bcdSub r s.a s.b s.a false z k) ∧
    (∃ z k, exec (.subACtoA f) s = .next { s with a := z, carry := k } ∧
      loopResult bcdSub r s.a s.c s.a false z k) ∧
    (∃ z k, exec (.decA f) s = .next { s with a := z, carry := k } ∧
      loopResult bcdSub r s.a Reg.zero s.a true z k) ∧
    (s.cfg.gkOps = .admits → ∃ z k, exec (.nineC f) s = .next { s with c := z, carry := k } ∧
      loopResult bcdSub r Reg.zero s.c s.c true z k) ∧
    (s.cfg.gkOps = .admits → ∃ z k, exec (.decC f) s = .next { s with c := z, carry := k } ∧
      loopResult bcdSub r s.c Reg.zero s.c true z k)

/-- The four tests write CARRY and no register: 1 for some nonzero digit of the slice, or 1 for a slice that is all zero
(R202, R205, R215, R221, R133, R134; the registers of the first three are from general knowledge, R201). -/
def Obligations.TestResults : Prop :=
  ∀ (f : SliceCode) (s : State) (r : DigitRange), sliceRange f s.p = some r →
    (s.cfg.gkOps = .admits → ∃ k, exec (.tstB f) s = .next { s with carry := k } ∧
      (k = true ↔ ∃ i, r.holds i ∧ s.b.digit i ≠ 0)) ∧
    (s.cfg.gkOps = .admits → ∃ k, exec (.tstC f) s = .next { s with carry := k } ∧
      (k = true ↔ ∃ i, r.holds i ∧ s.c.digit i ≠ 0)) ∧
    (s.cfg.gkOps = .admits → ∃ k, exec (.tstDecC f) s = .next { s with carry := k } ∧
      (k = true ↔ ∀ i, r.holds i → s.c.digit i = 0)) ∧
    ∃ k, exec (.tstDecA f) s = .next { s with carry := k } ∧ (k = true ↔ ∀ i, r.holds i → s.a.digit i = 0)

/-- The copies and clears write the slice of one register and nothing else (R131, R203, R206, R208, R211, R214, R225;
`0->B` is from general knowledge, R201). -/
def Obligations.CopyAndClearResults : Prop :=
  ∀ (f : SliceCode) (s : State) (r : DigitRange), sliceRange f s.p = some r →
    (∃ z, exec (.movBC f) s = .next { s with c := z } ∧ keepsOutside r s.c z ∧
      ∀ i, r.holds i → z.digit i = s.b.digit i) ∧
    (∃ z, exec (.movAB f) s = .next { s with b := z } ∧ keepsOutside r s.b z ∧
      ∀ i, r.holds i → z.digit i = s.a.digit i) ∧
    (∃ z, exec (.movCA f) s = .next { s with a := z } ∧ keepsOutside r s.a z ∧
      ∀ i, r.holds i → z.digit i = s.c.digit i) ∧
    (∃ z, exec (.clrC f) s = .next { s with c := z } ∧ keepsOutside r s.c z ∧ ∀ i, r.holds i → z.digit i = 0) ∧
    (∃ z, exec (.clrA f) s = .next { s with a := z } ∧ keepsOutside r s.a z ∧ ∀ i, r.holds i → z.digit i = 0) ∧
    (s.cfg.gkOps = .admits →
      ∃ z, exec (.clrB f) s = .next { s with b := z } ∧ keepsOutside r s.b z ∧ ∀ i, r.holds i → z.digit i = 0)

/-- The exchanges swap the slices of two registers and nothing else, and a second one restores them (R131, R219, R227,
R231). -/
def Obligations.ExchangeResults : Prop :=
  ∀ (f : SliceCode) (s : State) (r : DigitRange), sliceRange f s.p = some r →
    (∃ y z, exec (.xchBC f) s = .next { s with b := y, c := z } ∧ keepsOutside r s.b y ∧ keepsOutside r s.c z ∧
      (∀ i, r.holds i → y.digit i = s.c.digit i ∧ z.digit i = s.b.digit i) ∧
      exec (.xchBC f) { s with b := y, c := z } = .next s) ∧
    (∃ y z, exec (.xchAB f) s = .next { s with a := y, b := z } ∧ keepsOutside r s.a y ∧ keepsOutside r s.b z ∧
      (∀ i, r.holds i → y.digit i = s.b.digit i ∧ z.digit i = s.a.digit i) ∧
      exec (.xchAB f) { s with a := y, b := z } = .next s) ∧
    ∃ y z, exec (.xchAC f) s = .next { s with a := y, c := z } ∧ keepsOutside r s.a y ∧ keepsOutside r s.c z ∧
      (∀ i, r.holds i → y.digit i = s.c.digit i ∧ z.digit i = s.a.digit i) ∧
      exec (.xchAC f) { s with a := y, c := z } = .next s

/-- The shifts move the digits of the slice by one place, left toward the higher index, with 0 filled in and the digit
at the end lost; CARRY is not written (R132, R210, R220, R222, R224, decision D10). -/
def Obligations.ShiftResults : Prop :=
  ∀ (f : SliceCode) (s : State) (r : DigitRange), sliceRange f s.p = some r →
    (∃ z, exec (.shlA f) s = .next { s with a := z } ∧ keepsOutside r s.a z ∧ z.digit r.first = 0 ∧
      ∀ i, r.first ≤ i → i < r.last → z.digit (i + 1) = s.a.digit i) ∧
    (∃ z, exec (.shrA f) s = .next { s with a := z } ∧ keepsOutside r s.a z ∧ z.digit r.last = 0 ∧
      ∀ i, r.first ≤ i → i < r.last → z.digit i = s.a.digit (i + 1)) ∧
    (∃ z, exec (.shrB f) s = .next { s with b := z } ∧ keepsOutside r s.b z ∧ z.digit r.last = 0 ∧
      ∀ i, r.first ≤ i → i < r.last → z.digit i = s.b.digit (i + 1)) ∧
    ∃ z, exec (.shrC f) s = .next { s with c := z } ∧ keepsOutside r s.c z ∧ z.digit r.last = 0 ∧
      ∀ i, r.first ≤ i → i < r.last → z.digit i = s.c.digit (i + 1)

/-- The value law of AddSlice on BCD digits: the decimal sum modulo 10^n, CARRY exactly when it reaches 10^n, and BCD
digits again (R129, derived by the spec from R123 and R127). -/
def Obligations.AddSliceValue : Prop :=
  ∀ (r : DigitRange) (x y d : Reg) (seed : Bool), r.first ≤ r.last → r.last ≤ 13 → bcdOn r x → bcdOn r y →
    sliceVal r (addSlice r x y d seed).1 = (sliceVal r x + sliceVal r y + seed.toNat) % 10 ^ r.count ∧
    ((addSlice r x y d seed).2 = true ↔ 10 ^ r.count ≤ sliceVal r x + sliceVal r y + seed.toNat) ∧
    bcdOn r (addSlice r x y d seed).1

/-- The value law of SubSlice on BCD digits: the difference modulo 10^n (the ten's complement when negative), CARRY
exactly when it is negative, and BCD digits again (R129, derived by the spec from R123 and R127). -/
def Obligations.SubSliceValue : Prop :=
  ∀ (r : DigitRange) (x y d : Reg) (seed : Bool), r.first ≤ r.last → r.last ≤ 13 → bcdOn r x → bcdOn r y →
    (sliceVal r (subSlice r x y d seed).1 : Int) =
      ((sliceVal r x : Int) - sliceVal r y - seed.toNat) % 10 ^ r.count ∧
    ((subSlice r x y d seed).2 = true ↔ sliceVal r x < sliceVal r y + seed.toNat) ∧
    bcdOn r (subSlice r x y d seed).1

/-- The full-word adds on 14-digit BCD operands: the integer sum modulo 10^14 in the destination, CARRY exactly when the
true sum reaches 10^14, and nothing else changed (R130, derived by the spec from R129). -/
def Obligations.FullWordAdd : Prop :=
  ∀ s : State,
    (bcdReg s.a → bcdReg s.c → ∃ z k, exec (.addACtoC .w) s = .next { s with c := z, carry := k } ∧
      digitsVal z 0 14 = (digitsVal s.a 0 14 + digitsVal s.c 0 14) % 10 ^ 14 ∧
      (k = true ↔ 10 ^ 14 ≤ digitsVal s.a 0 14 + digitsVal s.c 0 14)) ∧
    (bcdReg s.a → bcdReg s.c → ∃ z k, exec (.addACtoA .w) s = .next { s with a := z, carry := k } ∧
      digitsVal z 0 14 = (digitsVal s.a 0 14 + digitsVal s.c 0 14) % 10 ^ 14 ∧
      (k = true ↔ 10 ^ 14 ≤ digitsVal s.a 0 14 + digitsVal s.c 0 14)) ∧
    (bcdReg s.a → bcdReg s.b → ∃ z k, exec (.addABtoA .w) s = .next { s with a := z, carry := k } ∧
      digitsVal z 0 14 = (digitsVal s.a 0 14 + digitsVal s.b 0 14) % 10 ^ 14 ∧
      (k = true ↔ 10 ^ 14 ≤ digitsVal s.a 0 14 + digitsVal s.b 0 14)) ∧
    (bcdReg s.c → ∃ z k, exec (.dblC .w) s = .next { s with c := z, carry := k } ∧
      digitsVal z 0 14 = (digitsVal s.c 0 14 + digitsVal s.c 0 14) % 10 ^ 14 ∧
      (k = true ↔ 10 ^ 14 ≤ digitsVal s.c 0 14 + digitsVal s.c 0 14))

/-- Registers that hold only BCD digits hold only BCD digits after any instruction but an LDC of 10..15 (R122, R234;
the source's invariant 1 in the reading of 90_conflicts.md C7). -/
def Obligations.BcdDigitsStayBcd : Prop :=
  ∀ (i : Instr) (s t : State), s.allBcd → (∀ k, i = .ldc k → k.toNat ≤ 9) → exec i s = .next t → t.allBcd

/-! ### A cycle that faults -/

/-- A fault in the execute stage ends the cycle there: the state that the instruction left, with no frame capture and
no error signal; only the model's own fetch field goes idle (R261, decision D27, log entries 3 and 5). -/
def Obligations.ExecuteFaultEndsTheCycle : Prop :=
  ∀ (s u : State) (h l : Byte) (i : Instr),
    s.fault = none → s.romPair s.offset s.pc = some (h, l) → decode [h, l] = .instr i [] →
    exec i (s.beginCycle.noteFetch (some (pairWord h l))).incrementPc = .next u → u.fault ≠ none →
    step s = .next { u with fetched := Fetched.idle }

end
end

