-- ==== Sys2Proof/Laws/Operands.lean ====
section
/-! SUPPORT. The operand forms: digits of a register, the slice selector, the status bits. -/

namespace Sys2Proof

theorem Reg.digit_setDigit (r : Reg) (i j : Nat) (v : Nibble) (h : i < 14) :
    (r.setDigit i v).digit j = if j = i then v else r.digit j := by
  by_cases e : j = i
  · subst e; simp [Reg.digit, Reg.setDigit, h]
  · simp [Reg.digit, Reg.setDigit, e, Ne.symm e]

@[simp] theorem Reg.digit_zero (i : Nat) : Reg.digit Reg.zero i = 0 := by
  unfold Reg.digit Reg.zero
  by_cases h : i < 14
  · simp [h]
  · rw [Vector.getElem?_eq_none (by omega)]; rfl

/-- An index past 13 reads 0. -/
theorem Reg.digit_of_ge (r : Reg) (i : Nat) (h : 14 ≤ i) : r.digit i = 0 := by
  simp [Reg.digit, h]

/-- Two registers with the same digits are the same register. -/
theorem Reg.ext_digit (x y : Reg) (h : ∀ i, i < 14 → x.digit i = y.digit i) : x = y := by
  apply Vector.ext
  intro i hi
  have := h i hi
  simpa [Reg.digit, Vector.getElem?_eq_getElem hi] using this

end Sys2Proof

namespace Sys2Proof.Machine

theorem pointerDigit_cases (p : Nibble) :
    (p.toNat < 14 ∧ pointerDigit p = some p.toNat) ∨ (14 ≤ p.toNat ∧ pointerDigit p = none) := by
  unfold pointerDigit
  split
  · exact .inl ⟨‹_›, rfl⟩
  · exact .inr ⟨by omega, rfl⟩

theorem statusIndex_cases (n : Nibble) :
    (n.toNat < 12 ∧ statusIndex n = some n.toNat) ∨ (12 ≤ n.toNat ∧ statusIndex n = none) := by
  unfold statusIndex
  split
  · exact .inl ⟨‹_›, rfl⟩
  · exact .inr ⟨by omega, rfl⟩

/-- Every slice is a non-empty range of digits 0..13 (R125). -/
theorem sliceRange_bounds {f : SliceCode} {p : Nibble} {r : DigitRange} (h : sliceRange f p = some r) :
    r.first ≤ r.last ∧ r.last ≤ 13 := by
  rcases pointerDigit_cases p with ⟨hp, e⟩ | ⟨hp, e⟩ <;> cases f <;> simp [sliceRange, e] at h <;> subst h <;> simp <;>
    omega

/-- The selector has no range exactly for the pointer-relative codes with P at 14 or 15 (R125). -/
theorem sliceRange_eq_none_iff (f : SliceCode) (p : Nibble) :
    sliceRange f p = none ↔ (f = .p ∨ f = .wp) ∧ 14 ≤ p.toNat := by
  rcases pointerDigit_cases p with ⟨hp, e⟩ | ⟨hp, e⟩ <;> cases f <;> simp [sliceRange, e] <;> omega

theorem statusBit_set (s : StatusBits) (i j : Nat) (h : i < 12) :
    statusBit (setStatusBit s i) j = if j = i then true else statusBit s j := by
  unfold statusBit setStatusBit
  by_cases e : j = i
  · subst e; simp [h]
  · have : (1#12 <<< i).getLsbD j = false := by
      simp only [BitVec.getLsbD_shiftLeft, BitVec.getLsbD_one]; simp; omega
    rw [BitVec.getLsbD_or, this, if_neg e, Bool.or_false]

theorem statusBit_clear (s : StatusBits) (i j : Nat) (h : j < 12) :
    statusBit (clearStatusBit s i) j = if j = i then false else statusBit s j := by
  unfold statusBit clearStatusBit
  by_cases e : j = i
  · subst e; simp [h]
  · have : (1#12 <<< i).getLsbD j = false := by
      simp only [BitVec.getLsbD_shiftLeft, BitVec.getLsbD_one]; simp; omega
    rw [BitVec.getLsbD_and, BitVec.getLsbD_not, this, if_neg e]
    simp [h]

end Sys2Proof.Machine
end

