-- ==== Sys2Proof/Laws/Alu.lean ====
section
/-! SUPPORT. What the slice loops do, once each. -/

namespace Sys2Proof.Machine

/-- `writeDigits` puts `g i` at each digit of its range and leaves the others (R131, R132). -/
theorem writeDigits_digit (g : Nat → Nibble) (i n : Nat) (d : Reg) (j : Nat) (h : i + n ≤ 14) :
    (writeDigits g i n d).digit j = if i ≤ j ∧ j < i + n then g j else d.digit j := by
  induction n generalizing i d with
  | zero => simp [writeDigits]
  | succ n ih =>
    rw [writeDigits, ih (i + 1) _ (by omega), Reg.digit_setDigit _ _ _ _ (by omega)]
    by_cases e : j = i
    · subst e; simp
    · simp only [e, if_false]
      by_cases h1 : i + 1 ≤ j ∧ j < i + 1 + n
      · rw [if_pos h1, if_pos (by omega)]
      · rw [if_neg h1, if_neg (by omega)]

/-- `writeDigits` over a slice. -/
theorem writeDigits_range (g : Nat → Nibble) (r : DigitRange) (d : Reg) (j : Nat) (h : r.first ≤ r.last)
    (h' : r.last ≤ 13) :
    (writeDigits g r.first r.count d).digit j = if r.holds j then g j else d.digit j := by
  rw [writeDigits_digit _ _ _ _ _ (by simp only [DigitRange.count]; omega)]
  by_cases e : r.holds j
  · rw [if_pos e, if_pos (by simp only [DigitRange.count, DigitRange.holds] at *; omega)]
  · rw [if_neg e, if_neg (by simp only [DigitRange.count, DigitRange.holds] at *; omega)]

/-- The digit loop leaves the digits before its range. -/
theorem carryLoop_digit_lt (op : Nibble → Nibble → Bool → Nibble × Bool) (x y : Reg) (i n : Nat) (k : Bool) (d : Reg)
    (j : Nat) (h : i + n ≤ 14) (hj : j < i) : (carryLoop op x y i n k d).1.digit j = d.digit j := by
  induction n generalizing i k d with
  | zero => rfl
  | succ n ih =>
    rw [carryLoop, ih (i + 1) _ _ (by omega) (by omega), Reg.digit_setDigit _ _ _ _ (by omega), if_neg (by omega)]

/-- The digit loop over `n` digits from `i`: a running carry that starts at the seed, one `op` per digit, and every
other digit of the destination as it was (R127, R128). -/
theorem carryLoop_chain (op : Nibble → Nibble → Bool → Nibble × Bool) (x y : Reg) (i n : Nat) (k : Bool) (d : Reg)
    (h : i + n ≤ 14) :
    (∃ c : Nat → Bool, c i = k ∧ c (i + n) = (carryLoop op x y i n k d).2 ∧
      ∀ j, i ≤ j → j < i + n → op (x.digit j) (y.digit j) (c j) = ((carryLoop op x y i n k d).1.digit j, c (j + 1))) ∧
    ∀ j, ¬ (i ≤ j ∧ j < i + n) → (carryLoop op x y i n k d).1.digit j = d.digit j := by
  induction n generalizing i k d with
  | zero => exact ⟨⟨fun _ => k, rfl, rfl, fun j _ _ => by omega⟩, fun _ _ => rfl⟩
  | succ n ih =>
    rw [carryLoop]
    obtain ⟨⟨c, c0, c1, hc⟩, hd⟩ := ih (i + 1) (op (x.digit i) (y.digit i) k).2
      (d.setDigit i (op (x.digit i) (y.digit i) k).1) (by omega)
    refine ⟨⟨fun j => if j = i then k else c j, by simp, ?_, fun j h1 h2 => ?_⟩, fun j hj => ?_⟩
    · beta_reduce
      rw [if_neg (by omega), ← c1]; congr 1; omega
    · beta_reduce
      rw [if_neg (show j + 1 ≠ i by omega)]
      by_cases e : j = i
      · subst e
        simp only [if_true, c0]
        rw [carryLoop_digit_lt _ _ _ _ _ _ _ _ (by omega) (by omega), Reg.digit_setDigit _ _ _ _ (by omega), if_pos rfl]
      · rw [if_neg e, hc j (by omega) (by omega)]
    · rw [hd j (by omega), Reg.digit_setDigit _ _ _ _ (by omega), if_neg (by omega)]

/-- The digit loop over a slice, in the terms of the claims. -/
theorem carryLoop_result (op : Nibble → Nibble → Bool → Nibble × Bool) (r : DigitRange) (x y d : Reg) (k : Bool)
    (h : r.first ≤ r.last) (h' : r.last ≤ 13) :
    loopResult op r x y d k (carryLoop op x y r.first r.count k d).1 (carryLoop op x y r.first r.count k d).2 := by
  have hn : r.first + r.count = r.last + 1 := by simp only [DigitRange.count]; omega
  obtain ⟨⟨c, c0, c1, hc⟩, hd⟩ := carryLoop_chain op x y r.first r.count k d (by omega)
  refine ⟨⟨c, c0, by rw [← hn]; exact c1, fun i hi => hc i hi.1 (by have := hi.2; omega)⟩, fun i hi => hd i ?_⟩
  rw [hn]
  simp only [DigitRange.holds] at hi
  omega

theorem addSlice_result (r : DigitRange) (x y d : Reg) (k : Bool) (h : r.first ≤ r.last) (h' : r.last ≤ 13) :
    loopResult bcdAdd r x y d k (addSlice r x y d k).1 (addSlice r x y d k).2 := carryLoop_result _ _ _ _ _ _ h h'

theorem subSlice_result (r : DigitRange) (x y d : Reg) (k : Bool) (h : r.first ≤ r.last) (h' : r.last ≤ 13) :
    loopResult bcdSub r x y d k (subSlice r x y d k).1 (subSlice r x y d k).2 := carryLoop_result _ _ _ _ _ _ h h'

theorem copySlice_digit (r : DigitRange) (x d : Reg) (j : Nat) (h : r.first ≤ r.last) (h' : r.last ≤ 13) :
    (copySlice r x d).digit j = if r.holds j then x.digit j else d.digit j := writeDigits_range _ _ _ _ h h'

theorem clearSlice_digit (r : DigitRange) (d : Reg) (j : Nat) (h : r.first ≤ r.last) (h' : r.last ≤ 13) :
    (clearSlice r d).digit j = if r.holds j then 0 else d.digit j := writeDigits_range _ _ _ _ h h'

theorem shiftLeft_digit (r : DigitRange) (x : Reg) (j : Nat) (h : r.first ≤ r.last) (h' : r.last ≤ 13) :
    (shiftLeft r x).digit j =
      if r.holds j then (if j = r.first then 0 else x.digit (j - 1)) else x.digit j := writeDigits_range _ _ _ _ h h'

theorem shiftRight_digit (r : DigitRange) (x : Reg) (j : Nat) (h : r.first ≤ r.last) (h' : r.last ≤ 13) :
    (shiftRight r x).digit j =
      if r.holds j then (if j = r.last then 0 else x.digit (j + 1)) else x.digit j := writeDigits_range _ _ _ _ h h'

end Sys2Proof.Machine
end

