-- ==== Sys2Proof/Laws/Display.lean ====
section
/-! SUPPORT. The glyphs under legal parameters (60_exceptions.md R275). -/

namespace Sys2Proof.Machine

/-- No glyph lights the decimal point (R275, decision D18). -/
theorem glyphOf_dp {k : Config} (h : k.wf) (v : Nibble) : (glyphOf k v).getLsbD 7 = false := by
  unfold glyphOf
  rw [Vector.getElem?_eq_getElem v.isLt]
  exact h.2.2 ⟨v.toNat, v.isLt⟩

end Sys2Proof.Machine
end

