-- ==== Sys2Proof/Laws/Memory.lean ====
section
/-! SUPPORT. The image's canonical form: every operation that makes or changes an image keeps it. -/

namespace Sys2Proof.Machine

/-- Every index of an image after a write is an index of it before, or the one written. -/
theorem Memory.mem_write {m : Memory} {i : Nat} {v : Byte} {x : Host.Cell} (h : x ∈ m.write i v) :
    x = (i, v) ∨ x ∈ m := by
  induction m with
  | nil => simpa [Memory.write] using h
  | cons y m ih =>
    unfold Memory.write at h
    split at h
    · simpa using h
    · split at h
      · rcases List.mem_cons.1 h with h | h
        · exact .inl h
        · exact .inr (List.mem_cons_of_mem _ h)
      · rcases List.mem_cons.1 h with h | h
        · exact .inr (h ▸ List.mem_cons_self)
        · exact (ih h).imp id (List.mem_cons_of_mem _)

theorem Memory.write_wf {m : Memory} {i : Nat} {v : Byte} (h : m.wf) : (m.write i v).wf := by
  induction m with
  | nil => simp [Memory.write, Memory.wf]
  | cons y m ih =>
    obtain ⟨hy, hm⟩ := List.pairwise_cons.1 h
    unfold Memory.write
    split
    · rename_i hi
      refine List.pairwise_cons.2 ⟨fun x hx => ?_, h⟩
      rcases List.mem_cons.1 hx with rfl | hx
      · exact hi
      · exact Nat.lt_trans hi (hy x hx)
    · split
      · rename_i hi
        subst hi
        exact List.pairwise_cons.2 ⟨hy, hm⟩
      · rename_i h1 h2
        refine List.pairwise_cons.2 ⟨fun x hx => ?_, ih hm⟩
        rcases Memory.mem_write hx with rfl | hx
        · exact Nat.lt_of_le_of_ne (Nat.not_lt.1 h1) (fun e => h2 e.symm)
        · exact hy x hx

theorem Memory.le_of_mem_ofBytes {i : Nat} {vs : List Byte} {x : Host.Cell} (h : x ∈ Memory.ofBytes i vs) :
    i ≤ x.1 := by
  induction vs generalizing i with
  | nil => simp [Memory.ofBytes] at h
  | cons v vs ih =>
    rcases List.mem_cons.1 h with rfl | h
    · exact Nat.le_refl _
    · exact Nat.le_of_succ_le (ih h)

theorem Memory.ofBytes_wf (i : Nat) (vs : List Byte) : (Memory.ofBytes i vs).wf := by
  induction vs generalizing i with
  | nil => exact List.Pairwise.nil
  | cons v vs ih => exact List.pairwise_cons.2 ⟨fun _ hx => Memory.le_of_mem_ofBytes hx, ih _⟩

theorem Memory.reset_wf : State.reset.rom.wf := List.Pairwise.nil

theorem State.withFetchWord_rom_wf {s : State} (nbits w : Nat) (h : s.rom.wf) : (s.withFetchWord nbits w).rom.wf :=
  Memory.write_wf (Memory.write_wf h)

/-- A byte read from an image with clear H bytes at an even index has bits 7..2 at 0 (R62). -/
theorem Memory.read_even_high {m : Memory} {i : Nat} {v : Byte} (hm : m.highBitsClear = true) (hi : i % 2 = 0)
    (h : m.read i = some v) : v.extractLsb' 2 6 = 0 := by
  induction m with
  | nil => simp [Memory.read] at h
  | cons y m ih =>
    simp only [Memory.highBitsClear, List.all_cons, Bool.and_eq_true, Bool.or_eq_true, decide_eq_true_eq] at hm
    unfold Memory.read at h
    split at h
    · rename_i e
      injection h with h
      subst h
      exact hm.1.resolve_left (by omega)
    · exact ih hm.2 h

end Sys2Proof.Machine
end

