-- ==== Sys2Proof/Laws/State.lean ====
section
/-! SUPPORT. One lemma per field of State per update of Machine/Ops.lean, Machine/Flags.lean, so that no proof unfolds an
update. -/

namespace Sys2Proof.Machine

/-! ### `raise` -/

@[simp] theorem State.raise_a (s : State) (k : FaultKind) : (s.raise k).a = s.a := rfl
@[simp] theorem State.raise_b (s : State) (k : FaultKind) : (s.raise k).b = s.b := rfl
@[simp] theorem State.raise_c (s : State) (k : FaultKind) : (s.raise k).c = s.c := rfl
@[simp] theorem State.raise_d (s : State) (k : FaultKind) : (s.raise k).d = s.d := rfl
@[simp] theorem State.raise_e (s : State) (k : FaultKind) : (s.raise k).e = s.e := rfl
@[simp] theorem State.raise_f (s : State) (k : FaultKind) : (s.raise k).f = s.f := rfl
@[simp] theorem State.raise_m (s : State) (k : FaultKind) : (s.raise k).m = s.m := rfl
@[simp] theorem State.raise_t (s : State) (k : FaultKind) : (s.raise k).t = s.t := rfl
@[simp] theorem State.raise_status (s : State) (k : FaultKind) : (s.raise k).status = s.status := rfl
@[simp] theorem State.raise_p (s : State) (k : FaultKind) : (s.raise k).p = s.p := rfl
@[simp] theorem State.raise_pc (s : State) (k : FaultKind) : (s.raise k).pc = s.pc := rfl
@[simp] theorem State.raise_ret (s : State) (k : FaultKind) : (s.raise k).ret = s.ret := rfl
@[simp] theorem State.raise_offset (s : State) (k : FaultKind) : (s.raise k).offset = s.offset := rfl
@[simp] theorem State.raise_carry (s : State) (k : FaultKind) : (s.raise k).carry = s.carry := rfl
@[simp] theorem State.raise_prevCarry (s : State) (k : FaultKind) : (s.raise k).prevCarry = s.prevCarry := rfl
@[simp] theorem State.raise_keyRom (s : State) (k : FaultKind) : (s.raise k).keyRom = s.keyRom := rfl
@[simp] theorem State.raise_keyValid (s : State) (k : FaultKind) : (s.raise k).keyValid = s.keyValid := rfl
@[simp] theorem State.raise_latch (s : State) (k : FaultKind) : (s.raise k).latch = s.latch := rfl
@[simp] theorem State.raise_de (s : State) (k : FaultKind) : (s.raise k).de = s.de := rfl
@[simp] theorem State.raise_upd (s : State) (k : FaultKind) : (s.raise k).upd = s.upd := rfl
@[simp] theorem State.raise_fb (s : State) (k : FaultKind) : (s.raise k).fb = s.fb := rfl
@[simp] theorem State.raise_frame (s : State) (k : FaultKind) : (s.raise k).frame = false := rfl
@[simp] theorem State.raise_err (s : State) (k : FaultKind) : (s.raise k).err = s.err := rfl
@[simp] theorem State.raise_fault (s : State) (k : FaultKind) : (s.raise k).fault = some ⟨k, s.fetched.bank, s.fetched.addr, s.fetched.word⟩ := rfl
@[simp] theorem State.raise_fetched (s : State) (k : FaultKind) : (s.raise k).fetched = s.fetched := rfl
@[simp] theorem State.raise_rom (s : State) (k : FaultKind) : (s.raise k).rom = s.rom := rfl
@[simp] theorem State.raise_cfg (s : State) (k : FaultKind) : (s.raise k).cfg = s.cfg := rfl

/-! ### `sampleCarry` -/

@[simp] theorem State.sampleCarry_a (s : State) : (s.sampleCarry).a = s.a := rfl
@[simp] theorem State.sampleCarry_b (s : State) : (s.sampleCarry).b = s.b := rfl
@[simp] theorem State.sampleCarry_c (s : State) : (s.sampleCarry).c = s.c := rfl
@[simp] theorem State.sampleCarry_d (s : State) : (s.sampleCarry).d = s.d := rfl
@[simp] theorem State.sampleCarry_e (s : State) : (s.sampleCarry).e = s.e := rfl
@[simp] theorem State.sampleCarry_f (s : State) : (s.sampleCarry).f = s.f := rfl
@[simp] theorem State.sampleCarry_m (s : State) : (s.sampleCarry).m = s.m := rfl
@[simp] theorem State.sampleCarry_t (s : State) : (s.sampleCarry).t = s.t := rfl
@[simp] theorem State.sampleCarry_status (s : State) : (s.sampleCarry).status = s.status := rfl
@[simp] theorem State.sampleCarry_p (s : State) : (s.sampleCarry).p = s.p := rfl
@[simp] theorem State.sampleCarry_pc (s : State) : (s.sampleCarry).pc = s.pc := rfl
@[simp] theorem State.sampleCarry_ret (s : State) : (s.sampleCarry).ret = s.ret := rfl
@[simp] theorem State.sampleCarry_offset (s : State) : (s.sampleCarry).offset = s.offset := rfl
@[simp] theorem State.sampleCarry_carry (s : State) : (s.sampleCarry).carry = false := rfl
@[simp] theorem State.sampleCarry_prevCarry (s : State) : (s.sampleCarry).prevCarry = s.carry := rfl
@[simp] theorem State.sampleCarry_keyRom (s : State) : (s.sampleCarry).keyRom = s.keyRom := rfl
@[simp] theorem State.sampleCarry_keyValid (s : State) : (s.sampleCarry).keyValid = s.keyValid := rfl
@[simp] theorem State.sampleCarry_latch (s : State) : (s.sampleCarry).latch = s.latch := rfl
@[simp] theorem State.sampleCarry_de (s : State) : (s.sampleCarry).de = s.de := rfl
@[simp] theorem State.sampleCarry_upd (s : State) : (s.sampleCarry).upd = s.upd := rfl
@[simp] theorem State.sampleCarry_fb (s : State) : (s.sampleCarry).fb = s.fb := rfl
@[simp] theorem State.sampleCarry_frame (s : State) : (s.sampleCarry).frame = s.frame := rfl
@[simp] theorem State.sampleCarry_err (s : State) : (s.sampleCarry).err = s.err := rfl
@[simp] theorem State.sampleCarry_fault (s : State) : (s.sampleCarry).fault = s.fault := rfl
@[simp] theorem State.sampleCarry_fetched (s : State) : (s.sampleCarry).fetched = s.fetched := rfl
@[simp] theorem State.sampleCarry_rom (s : State) : (s.sampleCarry).rom = s.rom := rfl
@[simp] theorem State.sampleCarry_cfg (s : State) : (s.sampleCarry).cfg = s.cfg := rfl

/-! ### `keyTransfer` -/

@[simp] theorem State.keyTransfer_a (s : State) : (s.keyTransfer).a = s.a := rfl
@[simp] theorem State.keyTransfer_b (s : State) : (s.keyTransfer).b = s.b := rfl
@[simp] theorem State.keyTransfer_c (s : State) : (s.keyTransfer).c = s.c := rfl
@[simp] theorem State.keyTransfer_d (s : State) : (s.keyTransfer).d = s.d := rfl
@[simp] theorem State.keyTransfer_e (s : State) : (s.keyTransfer).e = s.e := rfl
@[simp] theorem State.keyTransfer_f (s : State) : (s.keyTransfer).f = s.f := rfl
@[simp] theorem State.keyTransfer_m (s : State) : (s.keyTransfer).m = s.m := rfl
@[simp] theorem State.keyTransfer_t (s : State) : (s.keyTransfer).t = s.t := rfl
@[simp] theorem State.keyTransfer_status (s : State) : (s.keyTransfer).status = if s.keyLatched then setStatusBit s.status 0 else s.status := rfl
@[simp] theorem State.keyTransfer_p (s : State) : (s.keyTransfer).p = s.p := rfl
@[simp] theorem State.keyTransfer_pc (s : State) : (s.keyTransfer).pc = s.pc := rfl
@[simp] theorem State.keyTransfer_ret (s : State) : (s.keyTransfer).ret = s.ret := rfl
@[simp] theorem State.keyTransfer_offset (s : State) : (s.keyTransfer).offset = s.offset := rfl
@[simp] theorem State.keyTransfer_carry (s : State) : (s.keyTransfer).carry = s.carry := rfl
@[simp] theorem State.keyTransfer_prevCarry (s : State) : (s.keyTransfer).prevCarry = s.prevCarry := rfl
@[simp] theorem State.keyTransfer_keyRom (s : State) : (s.keyTransfer).keyRom = if s.keyLatched then s.latch else s.keyRom := rfl
@[simp] theorem State.keyTransfer_keyValid (s : State) : (s.keyTransfer).keyValid = (s.keyLatched || s.keyValid) := rfl
@[simp] theorem State.keyTransfer_latch (s : State) : (s.keyTransfer).latch = if s.keyLatched then latchEmpty else s.latch := rfl
@[simp] theorem State.keyTransfer_de (s : State) : (s.keyTransfer).de = s.de := rfl
@[simp] theorem State.keyTransfer_upd (s : State) : (s.keyTransfer).upd = s.upd := rfl
@[simp] theorem State.keyTransfer_fb (s : State) : (s.keyTransfer).fb = s.fb := rfl
@[simp] theorem State.keyTransfer_frame (s : State) : (s.keyTransfer).frame = s.frame := rfl
@[simp] theorem State.keyTransfer_err (s : State) : (s.keyTransfer).err = s.err := rfl
@[simp] theorem State.keyTransfer_fault (s : State) : (s.keyTransfer).fault = s.fault := rfl
@[simp] theorem State.keyTransfer_fetched (s : State) : (s.keyTransfer).fetched = s.fetched := rfl
@[simp] theorem State.keyTransfer_rom (s : State) : (s.keyTransfer).rom = s.rom := rfl
@[simp] theorem State.keyTransfer_cfg (s : State) : (s.keyTransfer).cfg = s.cfg := rfl

/-! ### `noteFetch` -/

@[simp] theorem State.noteFetch_a (s : State) (w : Option MicroWord) : (s.noteFetch w).a = s.a := rfl
@[simp] theorem State.noteFetch_b (s : State) (w : Option MicroWord) : (s.noteFetch w).b = s.b := rfl
@[simp] theorem State.noteFetch_c (s : State) (w : Option MicroWord) : (s.noteFetch w).c = s.c := rfl
@[simp] theorem State.noteFetch_d (s : State) (w : Option MicroWord) : (s.noteFetch w).d = s.d := rfl
@[simp] theorem State.noteFetch_e (s : State) (w : Option MicroWord) : (s.noteFetch w).e = s.e := rfl
@[simp] theorem State.noteFetch_f (s : State) (w : Option MicroWord) : (s.noteFetch w).f = s.f := rfl
@[simp] theorem State.noteFetch_m (s : State) (w : Option MicroWord) : (s.noteFetch w).m = s.m := rfl
@[simp] theorem State.noteFetch_t (s : State) (w : Option MicroWord) : (s.noteFetch w).t = s.t := rfl
@[simp] theorem State.noteFetch_status (s : State) (w : Option MicroWord) : (s.noteFetch w).status = s.status := rfl
@[simp] theorem State.noteFetch_p (s : State) (w : Option MicroWord) : (s.noteFetch w).p = s.p := rfl
@[simp] theorem State.noteFetch_pc (s : State) (w : Option MicroWord) : (s.noteFetch w).pc = s.pc := rfl
@[simp] theorem State.noteFetch_ret (s : State) (w : Option MicroWord) : (s.noteFetch w).ret = s.ret := rfl
@[simp] theorem State.noteFetch_offset (s : State) (w : Option MicroWord) : (s.noteFetch w).offset = s.offset := rfl
@[simp] theorem State.noteFetch_carry (s : State) (w : Option MicroWord) : (s.noteFetch w).carry = s.carry := rfl
@[simp] theorem State.noteFetch_prevCarry (s : State) (w : Option MicroWord) : (s.noteFetch w).prevCarry = s.prevCarry := rfl
@[simp] theorem State.noteFetch_keyRom (s : State) (w : Option MicroWord) : (s.noteFetch w).keyRom = s.keyRom := rfl
@[simp] theorem State.noteFetch_keyValid (s : State) (w : Option MicroWord) : (s.noteFetch w).keyValid = s.keyValid := rfl
@[simp] theorem State.noteFetch_latch (s : State) (w : Option MicroWord) : (s.noteFetch w).latch = s.latch := rfl
@[simp] theorem State.noteFetch_de (s : State) (w : Option MicroWord) : (s.noteFetch w).de = s.de := rfl
@[simp] theorem State.noteFetch_upd (s : State) (w : Option MicroWord) : (s.noteFetch w).upd = s.upd := rfl
@[simp] theorem State.noteFetch_fb (s : State) (w : Option MicroWord) : (s.noteFetch w).fb = s.fb := rfl
@[simp] theorem State.noteFetch_frame (s : State) (w : Option MicroWord) : (s.noteFetch w).frame = s.frame := rfl
@[simp] theorem State.noteFetch_err (s : State) (w : Option MicroWord) : (s.noteFetch w).err = s.err := rfl
@[simp] theorem State.noteFetch_fault (s : State) (w : Option MicroWord) : (s.noteFetch w).fault = s.fault := rfl
@[simp] theorem State.noteFetch_fetched (s : State) (w : Option MicroWord) : (s.noteFetch w).fetched = ⟨s.offset, s.pc, w⟩ := rfl
@[simp] theorem State.noteFetch_rom (s : State) (w : Option MicroWord) : (s.noteFetch w).rom = s.rom := rfl
@[simp] theorem State.noteFetch_cfg (s : State) (w : Option MicroWord) : (s.noteFetch w).cfg = s.cfg := rfl

/-! ### `incrementPc` -/

@[simp] theorem State.incrementPc_a (s : State) : (s.incrementPc).a = s.a := rfl
@[simp] theorem State.incrementPc_b (s : State) : (s.incrementPc).b = s.b := rfl
@[simp] theorem State.incrementPc_c (s : State) : (s.incrementPc).c = s.c := rfl
@[simp] theorem State.incrementPc_d (s : State) : (s.incrementPc).d = s.d := rfl
@[simp] theorem State.incrementPc_e (s : State) : (s.incrementPc).e = s.e := rfl
@[simp] theorem State.incrementPc_f (s : State) : (s.incrementPc).f = s.f := rfl
@[simp] theorem State.incrementPc_m (s : State) : (s.incrementPc).m = s.m := rfl
@[simp] theorem State.incrementPc_t (s : State) : (s.incrementPc).t = s.t := rfl
@[simp] theorem State.incrementPc_status (s : State) : (s.incrementPc).status = s.status := rfl
@[simp] theorem State.incrementPc_p (s : State) : (s.incrementPc).p = s.p := rfl
@[simp] theorem State.incrementPc_pc (s : State) : (s.incrementPc).pc = s.pc + 1 := rfl
@[simp] theorem State.incrementPc_ret (s : State) : (s.incrementPc).ret = s.ret := rfl
@[simp] theorem State.incrementPc_offset (s : State) : (s.incrementPc).offset = s.offset := rfl
@[simp] theorem State.incrementPc_carry (s : State) : (s.incrementPc).carry = s.carry := rfl
@[simp] theorem State.incrementPc_prevCarry (s : State) : (s.incrementPc).prevCarry = s.prevCarry := rfl
@[simp] theorem State.incrementPc_keyRom (s : State) : (s.incrementPc).keyRom = s.keyRom := rfl
@[simp] theorem State.incrementPc_keyValid (s : State) : (s.incrementPc).keyValid = s.keyValid := rfl
@[simp] theorem State.incrementPc_latch (s : State) : (s.incrementPc).latch = s.latch := rfl
@[simp] theorem State.incrementPc_de (s : State) : (s.incrementPc).de = s.de := rfl
@[simp] theorem State.incrementPc_upd (s : State) : (s.incrementPc).upd = s.upd := rfl
@[simp] theorem State.incrementPc_fb (s : State) : (s.incrementPc).fb = s.fb := rfl
@[simp] theorem State.incrementPc_frame (s : State) : (s.incrementPc).frame = s.frame := rfl
@[simp] theorem State.incrementPc_err (s : State) : (s.incrementPc).err = s.err := rfl
@[simp] theorem State.incrementPc_fault (s : State) : (s.incrementPc).fault = s.fault := rfl
@[simp] theorem State.incrementPc_fetched (s : State) : (s.incrementPc).fetched = s.fetched := rfl
@[simp] theorem State.incrementPc_rom (s : State) : (s.incrementPc).rom = s.rom := rfl
@[simp] theorem State.incrementPc_cfg (s : State) : (s.incrementPc).cfg = s.cfg := rfl

/-! ### `captureFrame` -/

@[simp] theorem State.captureFrame_a (s : State) (k : Bool) : (s.captureFrame k).a = s.a := rfl
@[simp] theorem State.captureFrame_b (s : State) (k : Bool) : (s.captureFrame k).b = s.b := rfl
@[simp] theorem State.captureFrame_c (s : State) (k : Bool) : (s.captureFrame k).c = s.c := rfl
@[simp] theorem State.captureFrame_d (s : State) (k : Bool) : (s.captureFrame k).d = s.d := rfl
@[simp] theorem State.captureFrame_e (s : State) (k : Bool) : (s.captureFrame k).e = s.e := rfl
@[simp] theorem State.captureFrame_f (s : State) (k : Bool) : (s.captureFrame k).f = s.f := rfl
@[simp] theorem State.captureFrame_m (s : State) (k : Bool) : (s.captureFrame k).m = s.m := rfl
@[simp] theorem State.captureFrame_t (s : State) (k : Bool) : (s.captureFrame k).t = s.t := rfl
@[simp] theorem State.captureFrame_status (s : State) (k : Bool) : (s.captureFrame k).status = s.status := rfl
@[simp] theorem State.captureFrame_p (s : State) (k : Bool) : (s.captureFrame k).p = s.p := rfl
@[simp] theorem State.captureFrame_pc (s : State) (k : Bool) : (s.captureFrame k).pc = s.pc := rfl
@[simp] theorem State.captureFrame_ret (s : State) (k : Bool) : (s.captureFrame k).ret = s.ret := rfl
@[simp] theorem State.captureFrame_offset (s : State) (k : Bool) : (s.captureFrame k).offset = s.offset := rfl
@[simp] theorem State.captureFrame_carry (s : State) (k : Bool) : (s.captureFrame k).carry = s.carry := rfl
@[simp] theorem State.captureFrame_prevCarry (s : State) (k : Bool) : (s.captureFrame k).prevCarry = s.prevCarry := rfl
@[simp] theorem State.captureFrame_keyRom (s : State) (k : Bool) : (s.captureFrame k).keyRom = s.keyRom := rfl
@[simp] theorem State.captureFrame_keyValid (s : State) (k : Bool) : (s.captureFrame k).keyValid = s.keyValid := rfl
@[simp] theorem State.captureFrame_latch (s : State) (k : Bool) : (s.captureFrame k).latch = s.latch := rfl
@[simp] theorem State.captureFrame_de (s : State) (k : Bool) : (s.captureFrame k).de = s.de := rfl
@[simp] theorem State.captureFrame_upd (s : State) (k : Bool) : (s.captureFrame k).upd = (s.displayFell k || s.upd) := rfl
@[simp] theorem State.captureFrame_fb (s : State) (k : Bool) : (s.captureFrame k).fb = if s.displayFell k then project s.cfg s.a s.b else s.fb := rfl
@[simp] theorem State.captureFrame_frame (s : State) (k : Bool) : (s.captureFrame k).frame = s.displayFell k := rfl
@[simp] theorem State.captureFrame_err (s : State) (k : Bool) : (s.captureFrame k).err = s.err := rfl
@[simp] theorem State.captureFrame_fault (s : State) (k : Bool) : (s.captureFrame k).fault = s.fault := rfl
@[simp] theorem State.captureFrame_fetched (s : State) (k : Bool) : (s.captureFrame k).fetched = s.fetched := rfl
@[simp] theorem State.captureFrame_rom (s : State) (k : Bool) : (s.captureFrame k).rom = s.rom := rfl
@[simp] theorem State.captureFrame_cfg (s : State) (k : Bool) : (s.captureFrame k).cfg = s.cfg := rfl

/-! ### `updateErr` -/

@[simp] theorem State.updateErr_a (s : State) : (s.updateErr).a = s.a := rfl
@[simp] theorem State.updateErr_b (s : State) : (s.updateErr).b = s.b := rfl
@[simp] theorem State.updateErr_c (s : State) : (s.updateErr).c = s.c := rfl
@[simp] theorem State.updateErr_d (s : State) : (s.updateErr).d = s.d := rfl
@[simp] theorem State.updateErr_e (s : State) : (s.updateErr).e = s.e := rfl
@[simp] theorem State.updateErr_f (s : State) : (s.updateErr).f = s.f := rfl
@[simp] theorem State.updateErr_m (s : State) : (s.updateErr).m = s.m := rfl
@[simp] theorem State.updateErr_t (s : State) : (s.updateErr).t = s.t := rfl
@[simp] theorem State.updateErr_status (s : State) : (s.updateErr).status = s.status := rfl
@[simp] theorem State.updateErr_p (s : State) : (s.updateErr).p = s.p := rfl
@[simp] theorem State.updateErr_pc (s : State) : (s.updateErr).pc = s.pc := rfl
@[simp] theorem State.updateErr_ret (s : State) : (s.updateErr).ret = s.ret := rfl
@[simp] theorem State.updateErr_offset (s : State) : (s.updateErr).offset = s.offset := rfl
@[simp] theorem State.updateErr_carry (s : State) : (s.updateErr).carry = s.carry := rfl
@[simp] theorem State.updateErr_prevCarry (s : State) : (s.updateErr).prevCarry = s.prevCarry := rfl
@[simp] theorem State.updateErr_keyRom (s : State) : (s.updateErr).keyRom = s.keyRom := rfl
@[simp] theorem State.updateErr_keyValid (s : State) : (s.updateErr).keyValid = s.keyValid := rfl
@[simp] theorem State.updateErr_latch (s : State) : (s.updateErr).latch = s.latch := rfl
@[simp] theorem State.updateErr_de (s : State) : (s.updateErr).de = s.de := rfl
@[simp] theorem State.updateErr_upd (s : State) : (s.updateErr).upd = s.upd := rfl
@[simp] theorem State.updateErr_fb (s : State) : (s.updateErr).fb = s.fb := rfl
@[simp] theorem State.updateErr_frame (s : State) : (s.updateErr).frame = s.frame := rfl
@[simp] theorem State.updateErr_err (s : State) : (s.updateErr).err = s.atErrorAddress := rfl
@[simp] theorem State.updateErr_fault (s : State) : (s.updateErr).fault = s.fault := rfl
@[simp] theorem State.updateErr_fetched (s : State) : (s.updateErr).fetched = s.fetched := rfl
@[simp] theorem State.updateErr_rom (s : State) : (s.updateErr).rom = s.rom := rfl
@[simp] theorem State.updateErr_cfg (s : State) : (s.updateErr).cfg = s.cfg := rfl

/-! ### `endFetch` -/

@[simp] theorem State.endFetch_a (s : State) : (s.endFetch).a = s.a := rfl
@[simp] theorem State.endFetch_b (s : State) : (s.endFetch).b = s.b := rfl
@[simp] theorem State.endFetch_c (s : State) : (s.endFetch).c = s.c := rfl
@[simp] theorem State.endFetch_d (s : State) : (s.endFetch).d = s.d := rfl
@[simp] theorem State.endFetch_e (s : State) : (s.endFetch).e = s.e := rfl
@[simp] theorem State.endFetch_f (s : State) : (s.endFetch).f = s.f := rfl
@[simp] theorem State.endFetch_m (s : State) : (s.endFetch).m = s.m := rfl
@[simp] theorem State.endFetch_t (s : State) : (s.endFetch).t = s.t := rfl
@[simp] theorem State.endFetch_status (s : State) : (s.endFetch).status = s.status := rfl
@[simp] theorem State.endFetch_p (s : State) : (s.endFetch).p = s.p := rfl
@[simp] theorem State.endFetch_pc (s : State) : (s.endFetch).pc = s.pc := rfl
@[simp] theorem State.endFetch_ret (s : State) : (s.endFetch).ret = s.ret := rfl
@[simp] theorem State.endFetch_offset (s : State) : (s.endFetch).offset = s.offset := rfl
@[simp] theorem State.endFetch_carry (s : State) : (s.endFetch).carry = s.carry := rfl
@[simp] theorem State.endFetch_prevCarry (s : State) : (s.endFetch).prevCarry = s.prevCarry := rfl
@[simp] theorem State.endFetch_keyRom (s : State) : (s.endFetch).keyRom = s.keyRom := rfl
@[simp] theorem State.endFetch_keyValid (s : State) : (s.endFetch).keyValid = s.keyValid := rfl
@[simp] theorem State.endFetch_latch (s : State) : (s.endFetch).latch = s.latch := rfl
@[simp] theorem State.endFetch_de (s : State) : (s.endFetch).de = s.de := rfl
@[simp] theorem State.endFetch_upd (s : State) : (s.endFetch).upd = s.upd := rfl
@[simp] theorem State.endFetch_fb (s : State) : (s.endFetch).fb = s.fb := rfl
@[simp] theorem State.endFetch_frame (s : State) : (s.endFetch).frame = s.frame := rfl
@[simp] theorem State.endFetch_err (s : State) : (s.endFetch).err = s.err := rfl
@[simp] theorem State.endFetch_fault (s : State) : (s.endFetch).fault = s.fault := rfl
@[simp] theorem State.endFetch_fetched (s : State) : (s.endFetch).fetched = Fetched.idle := rfl
@[simp] theorem State.endFetch_rom (s : State) : (s.endFetch).rom = s.rom := rfl
@[simp] theorem State.endFetch_cfg (s : State) : (s.endFetch).cfg = s.cfg := rfl

/-! ### `beginCycle` is the key transfer and then the carry sample -/

theorem State.beginCycle_eq (s : State) : s.beginCycle = s.keyTransfer.sampleCarry := rfl

@[simp] theorem State.beginCycle_a (s : State) : s.beginCycle.a = s.a := rfl
@[simp] theorem State.beginCycle_b (s : State) : s.beginCycle.b = s.b := rfl
@[simp] theorem State.beginCycle_c (s : State) : s.beginCycle.c = s.c := rfl
@[simp] theorem State.beginCycle_d (s : State) : s.beginCycle.d = s.d := rfl
@[simp] theorem State.beginCycle_e (s : State) : s.beginCycle.e = s.e := rfl
@[simp] theorem State.beginCycle_f (s : State) : s.beginCycle.f = s.f := rfl
@[simp] theorem State.beginCycle_m (s : State) : s.beginCycle.m = s.m := rfl
@[simp] theorem State.beginCycle_t (s : State) : s.beginCycle.t = s.t := rfl
@[simp] theorem State.beginCycle_status (s : State) : s.beginCycle.status = if s.keyLatched then setStatusBit s.status 0 else s.status := rfl
@[simp] theorem State.beginCycle_p (s : State) : s.beginCycle.p = s.p := rfl
@[simp] theorem State.beginCycle_pc (s : State) : s.beginCycle.pc = s.pc := rfl
@[simp] theorem State.beginCycle_ret (s : State) : s.beginCycle.ret = s.ret := rfl
@[simp] theorem State.beginCycle_offset (s : State) : s.beginCycle.offset = s.offset := rfl
@[simp] theorem State.beginCycle_carry (s : State) : s.beginCycle.carry = false := rfl
@[simp] theorem State.beginCycle_prevCarry (s : State) : s.beginCycle.prevCarry = s.carry := rfl
@[simp] theorem State.beginCycle_keyRom (s : State) : s.beginCycle.keyRom = if s.keyLatched then s.latch else s.keyRom := rfl
@[simp] theorem State.beginCycle_keyValid (s : State) : s.beginCycle.keyValid = (s.keyLatched || s.keyValid) := rfl
@[simp] theorem State.beginCycle_latch (s : State) : s.beginCycle.latch = if s.keyLatched then latchEmpty else s.latch := rfl
@[simp] theorem State.beginCycle_de (s : State) : s.beginCycle.de = s.de := rfl
@[simp] theorem State.beginCycle_upd (s : State) : s.beginCycle.upd = s.upd := rfl
@[simp] theorem State.beginCycle_fb (s : State) : s.beginCycle.fb = s.fb := rfl
@[simp] theorem State.beginCycle_frame (s : State) : s.beginCycle.frame = s.frame := rfl
@[simp] theorem State.beginCycle_err (s : State) : s.beginCycle.err = s.err := rfl
@[simp] theorem State.beginCycle_fault (s : State) : s.beginCycle.fault = s.fault := rfl
@[simp] theorem State.beginCycle_fetched (s : State) : s.beginCycle.fetched = s.fetched := rfl
@[simp] theorem State.beginCycle_rom (s : State) : s.beginCycle.rom = s.rom := rfl
@[simp] theorem State.beginCycle_cfg (s : State) : s.beginCycle.cfg = s.cfg := rfl

@[simp] theorem State.beginCycle_romPair (s : State) (bank : Bank) (x : Byte) :
    s.beginCycle.romPair bank x = s.romPair bank x := rfl

/-! ### `fetchFault` -/

@[simp] theorem State.fetchFault_a (s : State) : s.fetchFault.a = s.a := rfl
@[simp] theorem State.fetchFault_b (s : State) : s.fetchFault.b = s.b := rfl
@[simp] theorem State.fetchFault_c (s : State) : s.fetchFault.c = s.c := rfl
@[simp] theorem State.fetchFault_d (s : State) : s.fetchFault.d = s.d := rfl
@[simp] theorem State.fetchFault_e (s : State) : s.fetchFault.e = s.e := rfl
@[simp] theorem State.fetchFault_f (s : State) : s.fetchFault.f = s.f := rfl
@[simp] theorem State.fetchFault_m (s : State) : s.fetchFault.m = s.m := rfl
@[simp] theorem State.fetchFault_t (s : State) : s.fetchFault.t = s.t := rfl
@[simp] theorem State.fetchFault_status (s : State) : s.fetchFault.status = s.status := rfl
@[simp] theorem State.fetchFault_p (s : State) : s.fetchFault.p = s.p := rfl
@[simp] theorem State.fetchFault_pc (s : State) : s.fetchFault.pc = s.pc := rfl
@[simp] theorem State.fetchFault_ret (s : State) : s.fetchFault.ret = s.ret := rfl
@[simp] theorem State.fetchFault_offset (s : State) : s.fetchFault.offset = s.offset := rfl
@[simp] theorem State.fetchFault_carry (s : State) : s.fetchFault.carry = s.carry := rfl
@[simp] theorem State.fetchFault_prevCarry (s : State) : s.fetchFault.prevCarry = s.prevCarry := rfl
@[simp] theorem State.fetchFault_keyRom (s : State) : s.fetchFault.keyRom = s.keyRom := rfl
@[simp] theorem State.fetchFault_keyValid (s : State) : s.fetchFault.keyValid = s.keyValid := rfl
@[simp] theorem State.fetchFault_latch (s : State) : s.fetchFault.latch = s.latch := rfl
@[simp] theorem State.fetchFault_de (s : State) : s.fetchFault.de = s.de := rfl
@[simp] theorem State.fetchFault_upd (s : State) : s.fetchFault.upd = s.upd := rfl
@[simp] theorem State.fetchFault_fb (s : State) : s.fetchFault.fb = s.fb := rfl
@[simp] theorem State.fetchFault_frame (s : State) : s.fetchFault.frame = false := rfl
@[simp] theorem State.fetchFault_err (s : State) : s.fetchFault.err = s.err := rfl
@[simp] theorem State.fetchFault_fault (s : State) : s.fetchFault.fault = some ⟨.fetchUnpopulated, s.offset, s.pc, none⟩ := rfl
@[simp] theorem State.fetchFault_fetched (s : State) : s.fetchFault.fetched = Fetched.idle := rfl
@[simp] theorem State.fetchFault_rom (s : State) : s.fetchFault.rom = s.rom := rfl
@[simp] theorem State.fetchFault_cfg (s : State) : s.fetchFault.cfg = s.cfg := rfl

/-! ### `endCycle`: what both ends of a cycle leave -/

@[simp] theorem State.endCycle_a (s : State) (k : Bool) : (s.endCycle k).a = s.a := by
  unfold State.endCycle; split <;> rfl
@[simp] theorem State.endCycle_b (s : State) (k : Bool) : (s.endCycle k).b = s.b := by
  unfold State.endCycle; split <;> rfl
@[simp] theorem State.endCycle_c (s : State) (k : Bool) : (s.endCycle k).c = s.c := by
  unfold State.endCycle; split <;> rfl
@[simp] theorem State.endCycle_d (s : State) (k : Bool) : (s.endCycle k).d = s.d := by
  unfold State.endCycle; split <;> rfl
@[simp] theorem State.endCycle_e (s : State) (k : Bool) : (s.endCycle k).e = s.e := by
  unfold State.endCycle; split <;> rfl
@[simp] theorem State.endCycle_f (s : State) (k : Bool) : (s.endCycle k).f = s.f := by
  unfold State.endCycle; split <;> rfl
@[simp] theorem State.endCycle_m (s : State) (k : Bool) : (s.endCycle k).m = s.m := by
  unfold State.endCycle; split <;> rfl
@[simp] theorem State.endCycle_t (s : State) (k : Bool) : (s.endCycle k).t = s.t := by
  unfold State.endCycle; split <;> rfl
@[simp] theorem State.endCycle_status (s : State) (k : Bool) : (s.endCycle k).status = s.status := by
  unfold State.endCycle; split <;> rfl
@[simp] theorem State.endCycle_p (s : State) (k : Bool) : (s.endCycle k).p = s.p := by
  unfold State.endCycle; split <;> rfl
@[simp] theorem State.endCycle_pc (s : State) (k : Bool) : (s.endCycle k).pc = s.pc := by
  unfold State.endCycle; split <;> rfl
@[simp] theorem State.endCycle_ret (s : State) (k : Bool) : (s.endCycle k).ret = s.ret := by
  unfold State.endCycle; split <;> rfl
@[simp] theorem State.endCycle_offset (s : State) (k : Bool) : (s.endCycle k).offset = s.offset := by
  unfold State.endCycle; split <;> rfl
@[simp] theorem State.endCycle_carry (s : State) (k : Bool) : (s.endCycle k).carry = s.carry := by
  unfold State.endCycle; split <;> rfl
@[simp] theorem State.endCycle_prevCarry (s : State) (k : Bool) : (s.endCycle k).prevCarry = s.prevCarry := by
  unfold State.endCycle; split <;> rfl
@[simp] theorem State.endCycle_keyRom (s : State) (k : Bool) : (s.endCycle k).keyRom = s.keyRom := by
  unfold State.endCycle; split <;> rfl
@[simp] theorem State.endCycle_keyValid (s : State) (k : Bool) : (s.endCycle k).keyValid = s.keyValid := by
  unfold State.endCycle; split <;> rfl
@[simp] theorem State.endCycle_latch (s : State) (k : Bool) : (s.endCycle k).latch = s.latch := by
  unfold State.endCycle; split <;> rfl
@[simp] theorem State.endCycle_de (s : State) (k : Bool) : (s.endCycle k).de = s.de := by
  unfold State.endCycle; split <;> rfl
@[simp] theorem State.endCycle_fault (s : State) (k : Bool) : (s.endCycle k).fault = s.fault := by
  unfold State.endCycle; split <;> rfl
@[simp] theorem State.endCycle_fetched (s : State) (k : Bool) : (s.endCycle k).fetched = Fetched.idle := by
  unfold State.endCycle; split <;> rfl
@[simp] theorem State.endCycle_rom (s : State) (k : Bool) : (s.endCycle k).rom = s.rom := by
  unfold State.endCycle; split <;> rfl
@[simp] theorem State.endCycle_cfg (s : State) (k : Bool) : (s.endCycle k).cfg = s.cfg := by
  unfold State.endCycle; split <;> rfl

theorem State.keyLatched_iff (s : State) : s.keyLatched = true ↔ s.latch ≠ latchEmpty := by
  simp [State.keyLatched]

theorem State.displayFell_iff (s : State) (k : Bool) : s.displayFell k = true ↔ k = true ∧ s.de = false := by
  simp [State.displayFell]

theorem State.atErrorAddress_iff (s : State) : s.atErrorAddress = true ↔ s.offset = 0 ∧ s.pc = 191 := by
  simp [State.atErrorAddress]

end Sys2Proof.Machine
end

