-- ==== Sys2Proof/Laws/Ops.lean ====
section
/-! SUPPORT. What each shared operation can answer, said once: the arithmetic skeleton, the status skeleton, the fetch
and the end of a cycle. -/

namespace Sys2Proof.Machine

/-- The arithmetic skeleton answers one of three next states (R200, R201). -/
theorem arith_cases (gk : Bool) (f : SliceCode) (s : State) (body : DigitRange → State) :
    (sliceRange f s.p = none ∧ arith gk f s body = .next (s.raise .pointerRange)) ∨
    (∃ r, sliceRange f s.p = some r ∧ gk = true ∧ s.cfg.gkOps = .refuses ∧
      arith gk f s body = .next (s.raise .unmodelled)) ∨
    ∃ r, sliceRange f s.p = some r ∧ ¬ (gk = true ∧ s.cfg.gkOps = .refuses) ∧ arith gk f s body = .next (body r) := by
  unfold arith
  cases h : sliceRange f s.p with
  | none => exact .inl ⟨rfl, rfl⟩
  | some r =>
    by_cases hg : gk = true ∧ s.cfg.gkOps = .refuses
    · exact .inr (.inl ⟨r, rfl, hg.1, hg.2, by simp [hg]⟩)
    · exact .inr (.inr ⟨r, rfl, hg, by simp only [if_neg hg]⟩)

/-- The body runs on the slice, for an opcode that is not from general knowledge. -/
theorem arith_of_slice {f : SliceCode} {s : State} {r : DigitRange} (h : sliceRange f s.p = some r)
    (body : DigitRange → State) : arith false f s body = .next (body r) := by
  simp [arith, h]

/-- The body runs on the slice, for any opcode under `GK_OPS = admit`. -/
theorem arith_of_admits {gk : Bool} {f : SliceCode} {s : State} {r : DigitRange} (h : sliceRange f s.p = some r)
    (hg : s.cfg.gkOps = .admits) (body : DigitRange → State) : arith gk f s body = .next (body r) := by
  simp [arith, h, hg]

/-- What an arithmetic opcode's next state is, by whether `arithFault` names a fault. -/
theorem arith_next_inv {gk : Bool} {f : SliceCode} {s t : State} {body : DigitRange → State}
    (h : arith gk f s body = .next t) :
    (∃ k, t = s.raise k) ∨ ∃ r, sliceRange f s.p = some r ∧ t = body r := by
  rcases arith_cases gk f s body with ⟨_, e⟩ | ⟨r, _, _, _, e⟩ | ⟨r, hr, _, e⟩
  · exact .inl ⟨_, by injection h.symm.trans e⟩
  · exact .inl ⟨_, by injection h.symm.trans e⟩
  · exact .inr ⟨r, hr, by injection h.symm.trans e⟩

/-- The status skeleton runs its body on the bit, or raises StatusIndex (R164). -/
theorem onStatusBit_cases (n : Nibble) (s : State) (body : Nat → State) :
    (n.toNat < 12 ∧ onStatusBit n s body = .next (body n.toNat)) ∨
    (12 ≤ n.toNat ∧ onStatusBit n s body = .next (s.raise .statusIndex)) := by
  rcases statusIndex_cases n with ⟨h, e⟩ | ⟨h, e⟩
  · exact .inl ⟨h, by simp [onStatusBit, e]⟩
  · exact .inr ⟨h, by simp [onStatusBit, e]⟩

/-- The end of a cycle that raised a fault: nothing but the model's own field (R261). -/
theorem State.endCycle_of_fault {s : State} (h : s.fault.isSome = true) (k : Bool) : s.endCycle k = s.endFetch := by
  simp [State.endCycle, h]

/-- The end of a cycle that raised none: the frame capture and the error signal (R271, R280). -/
theorem State.endCycle_of_running {s : State} (h : s.fault = none) (k : Bool) :
    s.endCycle k = (s.captureFrame k).updateErr.endFetch := by
  simp [State.endCycle, h]

/-- A word pair that the fetch gives was read from the image, in a populated bank (R63). -/
theorem State.romPair_eq_some_iff (s : State) (bank : Bank) (a h l : Byte) :
    s.romPair bank a = some (h, l) ↔
      bank.toNat < s.cfg.romBanks ∧ s.rom.read (romIndex bank a) = some h ∧
        s.rom.read (romIndex bank a + 1) = some l := by
  unfold State.romPair
  by_cases hb : bank.toNat < s.cfg.romBanks
  · cases h1 : s.rom.read (romIndex bank a) <;> cases h2 : s.rom.read (romIndex bank a + 1) <;> simp [hb]
  · simp [hb]

end Sys2Proof.Machine
end

