-- ==== Sys2Proof/Laws/PerInstr.lean ====
section
/-! SUPPORT. Statements made once per constructor of Instr. The family EncodedWord holds the encoder against
spec/opcode_table.json: the word of a well-formed instruction matches its row's mask and match. -/

namespace Sys2Proof.Laws.EncodedWord

/-- The mask of the instruction's row. -/
def rowMask : Instr → MicroWord
  | .call _ => 0x003
  | .brnc _ => 0x003
  | .tstB _ => 0x3E3
  | .clrB _ => 0x3E3
  | .subACtoT _ => 0x3E3
  | .tstDecC _ => 0x3E3
  | .movBC _ => 0x3E3
  | .negC _ => 0x3E3
  | .clrC _ => 0x3E3
  | .nineC _ => 0x3E3
  | .shlA _ => 0x3E3
  | .movAB _ => 0x3E3
  | .subACtoC _ => 0x3E3
  | .decC _ => 0x3E3
  | .movCA _ => 0x3E3
  | .tstC _ => 0x3E3
  | .addACtoC _ => 0x3E3
  | .incC _ => 0x3E3
  | .subABtoT _ => 0x3E3
  | .xchBC _ => 0x3E3
  | .shrC _ => 0x3E3
  | .tstDecA _ => 0x3E3
  | .shrB _ => 0x3E3
  | .dblC _ => 0x3E3
  | .shrA _ => 0x3E3
  | .clrA _ => 0x3E3
  | .subABtoA _ => 0x3E3
  | .xchAB _ => 0x3E3
  | .subACtoA _ => 0x3E3
  | .decA _ => 0x3E3
  | .addABtoA _ => 0x3E3
  | .xchAC _ => 0x3E3
  | .addACtoA _ => 0x3E3
  | .incA _ => 0x3E3
  | .ret => 0x07F
  | .selrom _ => 0x07F
  | .keyjmp => 0x0FF
  | .tsts _ => 0x03F
  | .sets _ => 0x03F
  | .clrs _ => 0x03F
  | .clrst => 0x03F
  | .tstp _ => 0x03F
  | .setp _ => 0x03F
  | .incp => 0x03F
  | .decp => 0x03F
  | .ldc _ => 0x03F
  | .xcm => 0x3EF
  | .push => 0x3EF
  | .pop => 0x3EF
  | .mtoc => 0x3EF
  | .rot => 0x3EF
  | .clreg => 0x3EF
  | .dispoff => 0x3EF
  | .disptog => 0x3EF
  | .undefined _ => 0x0FF

/-- The match of the instruction's row; an UNDEFINED row's is its low byte. -/
def rowMatch : Instr → MicroWord
  | .call _ => 0x001
  | .brnc _ => 0x003
  | .tstB _ => 0x002
  | .clrB _ => 0x022
  | .subACtoT _ => 0x042
  | .tstDecC _ => 0x062
  | .movBC _ => 0x082
  | .negC _ => 0x0A2
  | .clrC _ => 0x0C2
  | .nineC _ => 0x0E2
  | .shlA _ => 0x102
  | .movAB _ => 0x122
  | .subACtoC _ => 0x142
  | .decC _ => 0x162
  | .movCA _ => 0x182
  | .tstC _ => 0x1A2
  | .addACtoC _ => 0x1C2
  | .incC _ => 0x1E2
  | .subABtoT _ => 0x202
  | .xchBC _ => 0x222
  | .shrC _ => 0x242
  | .tstDecA _ => 0x262
  | .shrB _ => 0x282
  | .dblC _ => 0x2A2
  | .shrA _ => 0x2C2
  | .clrA _ => 0x2E2
  | .subABtoA _ => 0x302
  | .xchAB _ => 0x322
  | .subACtoA _ => 0x342
  | .decA _ => 0x362
  | .addABtoA _ => 0x382
  | .xchAC _ => 0x3A2
  | .addACtoA _ => 0x3C2
  | .incA _ => 0x3E2
  | .ret => 0x030
  | .selrom _ => 0x010
  | .keyjmp => 0x0D0
  | .tsts _ => 0x014
  | .sets _ => 0x004
  | .clrs _ => 0x024
  | .clrst => 0x034
  | .tstp _ => 0x02C
  | .setp _ => 0x00C
  | .incp => 0x03C
  | .decp => 0x01C
  | .ldc _ => 0x018
  | .xcm => 0x0A8
  | .push => 0x128
  | .pop => 0x1A8
  | .mtoc => 0x2A8
  | .rot => 0x328
  | .clreg => 0x3A8
  | .dispoff => 0x028
  | .disptog => 0x228
  | .undefined l => l.setWidth 10

/-- The encoded word matches its opcode-table row, and the bits its format ignores are 0 (R105). -/
def Statement (i : Instr) : Prop :=
  i.wellFormed = true → encodeWord i &&& rowMask i = rowMatch i ∧ encodeWord i &&& ignoredBits i = 0

theorem call (a : Byte) : Statement (.call a) := by revert a; unfold Statement; decide
theorem brnc (a : Byte) : Statement (.brnc a) := by revert a; unfold Statement; decide
theorem tstB (f : SliceCode) : Statement (.tstB f) := by cases f <;> unfold Statement <;> decide
theorem clrB (f : SliceCode) : Statement (.clrB f) := by cases f <;> unfold Statement <;> decide
theorem subACtoT (f : SliceCode) : Statement (.subACtoT f) := by cases f <;> unfold Statement <;> decide
theorem tstDecC (f : SliceCode) : Statement (.tstDecC f) := by cases f <;> unfold Statement <;> decide
theorem movBC (f : SliceCode) : Statement (.movBC f) := by cases f <;> unfold Statement <;> decide
theorem negC (f : SliceCode) : Statement (.negC f) := by cases f <;> unfold Statement <;> decide
theorem clrC (f : SliceCode) : Statement (.clrC f) := by cases f <;> unfold Statement <;> decide
theorem nineC (f : SliceCode) : Statement (.nineC f) := by cases f <;> unfold Statement <;> decide
theorem shlA (f : SliceCode) : Statement (.shlA f) := by cases f <;> unfold Statement <;> decide
theorem movAB (f : SliceCode) : Statement (.movAB f) := by cases f <;> unfold Statement <;> decide
theorem subACtoC (f : SliceCode) : Statement (.subACtoC f) := by cases f <;> unfold Statement <;> decide
theorem decC (f : SliceCode) : Statement (.decC f) := by cases f <;> unfold Statement <;> decide
theorem movCA (f : SliceCode) : Statement (.movCA f) := by cases f <;> unfold Statement <;> decide
theorem tstC (f : SliceCode) : Statement (.tstC f) := by cases f <;> unfold Statement <;> decide
theorem addACtoC (f : SliceCode) : Statement (.addACtoC f) := by cases f <;> unfold Statement <;> decide
theorem incC (f : SliceCode) : Statement (.incC f) := by cases f <;> unfold Statement <;> decide
theorem subABtoT (f : SliceCode) : Statement (.subABtoT f) := by cases f <;> unfold Statement <;> decide
theorem xchBC (f : SliceCode) : Statement (.xchBC f) := by cases f <;> unfold Statement <;> decide
theorem shrC (f : SliceCode) : Statement (.shrC f) := by cases f <;> unfold Statement <;> decide
theorem tstDecA (f : SliceCode) : Statement (.tstDecA f) := by cases f <;> unfold Statement <;> decide
theorem shrB (f : SliceCode) : Statement (.shrB f) := by cases f <;> unfold Statement <;> decide
theorem dblC (f : SliceCode) : Statement (.dblC f) := by cases f <;> unfold Statement <;> decide
theorem shrA (f : SliceCode) : Statement (.shrA f) := by cases f <;> unfold Statement <;> decide
theorem clrA (f : SliceCode) : Statement (.clrA f) := by cases f <;> unfold Statement <;> decide
theorem subABtoA (f : SliceCode) : Statement (.subABtoA f) := by cases f <;> unfold Statement <;> decide
theorem xchAB (f : SliceCode) : Statement (.xchAB f) := by cases f <;> unfold Statement <;> decide
theorem subACtoA (f : SliceCode) : Statement (.subACtoA f) := by cases f <;> unfold Statement <;> decide
theorem decA (f : SliceCode) : Statement (.decA f) := by cases f <;> unfold Statement <;> decide
theorem addABtoA (f : SliceCode) : Statement (.addABtoA f) := by cases f <;> unfold Statement <;> decide
theorem xchAC (f : SliceCode) : Statement (.xchAC f) := by cases f <;> unfold Statement <;> decide
theorem addACtoA (f : SliceCode) : Statement (.addACtoA f) := by cases f <;> unfold Statement <;> decide
theorem incA (f : SliceCode) : Statement (.incA f) := by cases f <;> unfold Statement <;> decide
theorem ret : Statement .ret := by unfold Statement; decide
theorem selrom (b : Bank) : Statement (.selrom b) := by revert b; unfold Statement; decide
theorem keyjmp : Statement .keyjmp := by unfold Statement; decide
theorem tsts (n : Nibble) : Statement (.tsts n) := by revert n; unfold Statement; decide
theorem sets (n : Nibble) : Statement (.sets n) := by revert n; unfold Statement; decide
theorem clrs (n : Nibble) : Statement (.clrs n) := by revert n; unfold Statement; decide
theorem clrst : Statement .clrst := by unfold Statement; decide
theorem tstp (n : Nibble) : Statement (.tstp n) := by revert n; unfold Statement; decide
theorem setp (n : Nibble) : Statement (.setp n) := by revert n; unfold Statement; decide
theorem incp : Statement .incp := by unfold Statement; decide
theorem decp : Statement .decp := by unfold Statement; decide
theorem ldc (k : Nibble) : Statement (.ldc k) := by revert k; unfold Statement; decide
theorem xcm : Statement .xcm := by unfold Statement; decide
theorem push : Statement .push := by unfold Statement; decide
theorem pop : Statement .pop := by unfold Statement; decide
theorem mtoc : Statement .mtoc := by unfold Statement; decide
theorem rot : Statement .rot := by unfold Statement; decide
theorem clreg : Statement .clreg := by unfold Statement; decide
theorem dispoff : Statement .dispoff := by unfold Statement; decide
theorem disptog : Statement .disptog := by unfold Statement; decide
theorem undefined (l : Byte) : Statement (.undefined l) := by revert l; unfold Statement; decide

end Sys2Proof.Laws.EncodedWord
end

