-- ==== Sys2Proof/Laws/Step.lean ====
section
/-! SUPPORT. The one inversion lemma of `step`: what a step that answers a next state did (R90). -/

namespace Sys2Proof.Machine

/-- A step that answers `t` either took the fetch fault or ran the decoded instruction and ended the cycle. -/
theorem step_next_inv {s t : State} (h : step s = .next t) :
    s.fault = none ∧
      ((s.romPair s.offset s.pc = none ∧ t = s.beginCycle.fetchFault) ∨
       ∃ (x y : Byte) (i : Instr) (rest : List Byte) (u : State),
         s.romPair s.offset s.pc = some (x, y) ∧ decode [x, y] = .instr i rest ∧
         exec i (s.beginCycle.noteFetch (some (pairWord x y))).incrementPc = .next u ∧ t = u.endCycle s.de) := by
  unfold step at h
  split at h
  · cases h
  · rename_i hf
    refine ⟨hf, ?_⟩
    simp only [State.beginCycle_romPair, State.beginCycle_offset, State.beginCycle_pc, State.beginCycle_de] at h
    split at h
    · rename_i hr
      injection h with h
      exact .inl ⟨hr, h.symm⟩
    · rename_i x y hr
      split at h
      · cases h
      · rename_i i rest hd
        split at h
        · rename_i u hu
          injection h with h
          exact .inr ⟨x, y, i, rest, u, hr, hd, hu, h.symm⟩
        · cases h
        · cases h

end Sys2Proof.Machine
end

