-- ==== Sys2Proof/Machine/Asm.lean ====
section
/-! DEFINITION. The assembler text of an instruction (30_encoding.md R105 to R107): the spec's own notation. -/

namespace Sys2Proof.Machine

/-- The field name of a slice code (R106). -/
def sliceName : SliceCode → String
  | .p => "p"
  | .m => "m"
  | .x => "x"
  | .w => "w"
  | .wp => "wp"
  | .ms => "ms"
  | .xs => "xs"
  | .s => "s"

/-- An arithmetic instruction's text: its mnemonic and its field in brackets (R106). -/
def arithText (mnemonic : String) (f : SliceCode) : String := mnemonic ++ " [" ++ sliceName f ++ "]"

/-- The assembler text of an instruction, operands in decimal (R105, R106). -/
def asmText : Instr → String
  | .call a => "CALL " ++ toString a.toNat
  | .brnc a => "BRNC " ++ toString a.toNat
  | .tstB f => arithText "TST B<>0" f
  | .clrB f => arithText "0->B" f
  | .subACtoT f => arithText "A-C->T" f
  | .tstDecC f => arithText "TST C-1" f
  | .movBC f => arithText "B->C" f
  | .negC f => arithText "0-C->C" f
  | .clrC f => arithText "0->C" f
  | .nineC f => arithText "0-C-1->C" f
  | .shlA f => arithText "SHL A" f
  | .movAB f => arithText "A->B" f
  | .subACtoC f => arithText "A-C->C" f
  | .decC f => arithText "C-1->C" f
  | .movCA f => arithText "C->A" f
  | .tstC f => arithText "TST C<>0" f
  | .addACtoC f => arithText "A+C->C" f
  | .incC f => arithText "C+1->C" f
  | .subABtoT f => arithText "A-B->T" f
  | .xchBC f => arithText "B<->C" f
  | .shrC f => arithText "SHR C" f
  | .tstDecA f => arithText "TST A-1" f
  | .shrB f => arithText "SHR B" f
  | .dblC f => arithText "C+C->C" f
  | .shrA f => arithText "SHR A" f
  | .clrA f => arithText "0->A" f
  | .subABtoA f => arithText "A-B->A" f
  | .xchAB f => arithText "A<->B" f
  | .subACtoA f => arithText "A-C->A" f
  | .decA f => arithText "A-1->A" f
  | .addABtoA f => arithText "A+B->A" f
  | .xchAC f => arithText "A<->C" f
  | .addACtoA f => arithText "A+C->A" f
  | .incA f => arithText "A+1->A" f
  | .ret => "RET"
  | .selrom b => "SELROM " ++ toString b.toNat
  | .keyjmp => "KEYJMP"
  | .tsts n => "TSTS " ++ toString n.toNat
  | .sets n => "SETS " ++ toString n.toNat
  | .clrs n => "CLRS " ++ toString n.toNat
  | .clrst => "CLRST"
  | .tstp n => "TSTP " ++ toString n.toNat
  | .setp n => "SETP " ++ toString n.toNat
  | .incp => "INCP"
  | .decp => "DECP"
  | .ldc k => "LDC " ++ toString k.toNat
  | .xcm => "XCM"
  | .push => "PUSH"
  | .pop => "POP"
  | .mtoc => "MTOC"
  | .rot => "ROT"
  | .clreg => "CLREG"
  | .dispoff => "DISPOFF"
  | .disptog => "DISPTOG"
  | .undefined _ => "NOP"

end Sys2Proof.Machine
end

