-- ==== Sys2Proof/Tests/Slice0.lean ====
section
/-! SUPPORT. The model's own tests: the WellFormed smoke, the decoding of written-out words, one step per instruction
(expected values from the examples of the rules and the vectors of 95_test_vectors.md), and for every statement with
hypotheses a state and operands that meet them. -/

namespace Sys2Proof.Tests

open Sys2Proof Sys2Proof.Machine

/-! ### WellFormed -/

theorem test_wellFormed_accepts_low_byte : Instr.wellFormed (.undefined 0xC8) = true := by decide

/-- 0x30 is the low byte of RET, not of an UNDEFINED word. -/
theorem test_wellFormed_refuses_low_byte : Instr.wellFormed (.undefined 0x30) = false := by decide

/-! ### Decoding, each word written out from the formats of R84 -/

theorem test_decode_call : decodeWord 0b1100010101#10 = .call 0xC5 := by decide
theorem test_decode_brnc : decodeWord 0b0011101011#10 = .brnc 0x3A := by decide
theorem test_decode_tstB : decodeWord 0b0000010010#10 = .tstB .wp := by decide
theorem test_decode_addACtoC : decodeWord 0b0111001110#10 = .addACtoC .w := by decide
theorem test_decode_incA : decodeWord 0b1111111110#10 = .incA .s := by decide
theorem test_decode_ret : decodeWord 0b1110110000#10 = .ret := by decide
theorem test_decode_selrom : decodeWord 0b1110010000#10 = .selrom 7 := by decide
theorem test_decode_keyjmp : decodeWord 0b1111010000#10 = .keyjmp := by decide
theorem test_decode_tsts : decodeWord 0b1111010100#10 = .tsts 15 := by decide
theorem test_decode_sets : decodeWord 0b1011000100#10 = .sets 11 := by decide
theorem test_decode_clrs : decodeWord 0b0000100100#10 = .clrs 0 := by decide
theorem test_decode_clrst : decodeWord 0b1111110100#10 = .clrst := by decide
theorem test_decode_tstp : decodeWord 0b1101101100#10 = .tstp 13 := by decide
theorem test_decode_setp : decodeWord 0b0100001100#10 = .setp 4 := by decide
theorem test_decode_incp : decodeWord 0b0001111100#10 = .incp := by decide
theorem test_decode_decp : decodeWord 0b1111011100#10 = .decp := by decide
theorem test_decode_ldc : decodeWord 0b1001011000#10 = .ldc 9 := by decide
theorem test_decode_xcm : decodeWord 0b0010111000#10 = .xcm := by decide
theorem test_decode_push : decodeWord 0b0100101000#10 = .push := by decide
theorem test_decode_pop : decodeWord 0b0110111000#10 = .pop := by decide
theorem test_decode_mtoc : decodeWord 0b1010101000#10 = .mtoc := by decide
theorem test_decode_rot : decodeWord 0b1100111000#10 = .rot := by decide
theorem test_decode_clreg : decodeWord 0b1110111000#10 = .clreg := by decide
theorem test_decode_dispoff : decodeWord 0b0000111000#10 = .dispoff := by decide
theorem test_decode_disptog : decodeWord 0b1000101000#10 = .disptog := by decide
theorem test_decode_undefined : decodeWord 0b0111101000#10 = .undefined 0xE8 := by decide

/-- The source's worked example (95_test_vectors.md section 1.2): H = 0x01, L = 0xCE. -/
theorem test_decode_bytes : decode [0x01, 0xCE, 0x55] = .instr (.addACtoC .w) [0x55] := by decide

theorem test_decode_refuses_high_bits : decode [0x05, 0xCE] = .refused .highBits := by decide

theorem test_encode_addACtoC : encode (.addACtoC .w) = [0x01, 0xCE] := by decide

theorem test_decodeTableWord : decodeTableWord 16 0x1CE = some (.addACtoC .w) := by decide

theorem test_asmText : asmText (.addACtoC .w) = "A+C->C [w]" := by decide

/-! ### One step per instruction -/

/-- The register whose digits are the hexadecimal digits of a number, digit 13 first. -/
def reg (n : Nat) : Reg := Vector.ofFn fun i : Fin 14 => BitVec.ofNat 4 (n / 16 ^ i.val)

/-- Whether the next state after one cycle on the word has a property. -/
def after (s : State) (w : Nat) (q : State → Bool) : Bool :=
  match step (s.withFetchWord 16 w) with
  | .next t => q t
  | .fault _ => false
  | .refused _ => false

/-- R202. -/
theorem test_step_tstB_sees_mantissa_digit :
    after { State.reset with b := reg 0x99999000300999 } 0x006 (fun t => decide (t.carry = true)) = true := by
  decide

/-- R202. -/
theorem test_step_tstB_ignores_digits_outside :
    after { State.reset with b := reg 0x90000000000999 } 0x006 (fun t => decide (t.carry = false)) = true := by
  decide

/-- R203. -/
theorem test_step_clrB_exponent :
    after { State.reset with b := reg 0x99999999999999 } 0x02A (fun t => decide (t.b = reg 0x99999999999000 ∧ t.carry = false)) = true := by
  decide

/-- R204. -/
theorem test_step_subACtoT_borrows :
    after { State.reset with a := reg 0x5, c := reg 0x7 } 0x04E (fun t => decide (t.t = reg 0x99999999999998 ∧ t.carry = true ∧ t.a = reg 0x5)) = true := by
  decide

/-- R205. -/
theorem test_step_tstDecC_zero_mantissa :
    after { State.reset with c := reg 0x90000000000123 } 0x066 (fun t => decide (t.carry = true ∧ t.c = reg 0x90000000000123)) = true := by
  decide

/-- R206. -/
theorem test_step_movBC_mantissa :
    after { State.reset with b := reg 0x21234567890123 } 0x086 (fun t => decide (t.c = reg 0x01234567890000)) = true := by
  decide

/-- R207. -/
theorem test_step_negC_one :
    after { State.reset with c := reg 0x1 } 0x0AE (fun t => decide (t.c = reg 0x99999999999999 ∧ t.carry = true)) = true := by
  decide

/-- R208. -/
theorem test_step_clrC_mantissa_and_sign :
    after { State.reset with c := reg 0x91234567890123 } 0x0D6 (fun t => decide (t.c = reg 0x00000000000123)) = true := by
  decide

/-- R209. -/
theorem test_step_nineC_exponent :
    after { State.reset with c := reg 0x25 } 0x0EA (fun t => decide (t.c = reg 0x974 ∧ t.carry = true)) = true := by
  decide

/-- R210. -/
theorem test_step_shlA_mantissa :
    after { State.reset with a := reg 0x01234567890123 } 0x106 (fun t => decide (t.a = reg 0x02345678900123)) = true := by
  decide

/-- R211. -/
theorem test_step_movAB_word :
    after { State.reset with a := reg 0x01234567890123, b := reg 0x99999999999999 } 0x12E (fun t => decide (t.b = reg 0x01234567890123)) = true := by
  decide

/-- R212. -/
theorem test_step_subACtoC_mantissa :
    after { State.reset with a := reg 0x00500000000000, c := reg 0x00300000000000 } 0x146 (fun t => decide (t.c = reg 0x00200000000000 ∧ t.carry = false)) = true := by
  decide

/-- R213. -/
theorem test_step_decC_exponent :
    after { State.reset with c := reg 0x100 } 0x16A (fun t => decide (t.c = reg 0x099 ∧ t.carry = false)) = true := by
  decide

/-- R214. -/
theorem test_step_movCA_one_digit :
    after { State.reset with c := reg 0x900 } 0x19A (fun t => decide (t.a = reg 0x900)) = true := by
  decide

/-- R215. -/
theorem test_step_tstC_zero_exponent :
    after { State.reset with c := reg 0x11111111111000 } 0x1AA (fun t => decide (t.carry = false)) = true := by
  decide

/-- R216. -/
theorem test_step_addACtoC_word :
    after { State.reset with a := reg 0x09999999999999, c := reg 0x1 } 0x1CE (fun t => decide (t.c = reg 0x10000000000000 ∧ t.carry = false)) = true := by
  decide

/-- vector A7. -/
theorem test_step_addACtoC_carries_out :
    after { State.reset with a := reg 0x09999999999000, c := reg 0x1000 } 0x1C6 (fun t => decide (t.c = reg 0 ∧ t.carry = true)) = true := by
  decide

/-- R217. -/
theorem test_step_incC_mantissa :
    after { State.reset with c := reg 0x00999999999900 } 0x1E6 (fun t => decide (t.c = reg 0x01000000000900 ∧ t.carry = false)) = true := by
  decide

/-- R218. -/
theorem test_step_subABtoT_mantissa :
    after { State.reset with a := reg 0x01200000000000, b := reg 0x01300000000000 } 0x206 (fun t => decide (t.t = reg 0x09900000000000 ∧ t.carry = true)) = true := by
  decide

/-- R219. -/
theorem test_step_xchBC_sign :
    after { State.reset with b := reg 0x90000000000000 } 0x23E (fun t => decide (t.b = reg 0 ∧ t.c = reg 0x90000000000000)) = true := by
  decide

/-- R220. -/
theorem test_step_shrC_mantissa :
    after { State.reset with c := reg 0x01234567890123 } 0x246 (fun t => decide (t.c = reg 0x00123456789123)) = true := by
  decide

/-- R221. -/
theorem test_step_tstDecA_zero_exponent :
    after { State.reset with a := reg 0x01234567890000 } 0x26A (fun t => decide (t.carry = true)) = true := by
  decide

/-- R222. -/
theorem test_step_shrB_word :
    after { State.reset with b := reg 0x29999999999999 } 0x28E (fun t => decide (t.b = reg 0x02999999999999)) = true := by
  decide

/-- R223. -/
theorem test_step_dblC_mantissa :
    after { State.reset with c := reg 0x05000000000000 } 0x2A6 (fun t => decide (t.c = reg 0 ∧ t.carry = true)) = true := by
  decide

/-- R224. -/
theorem test_step_shrA_pointer :
    after { State.reset with p := 5, a := reg 0x01234567890123 } 0x2C2 (fun t => decide (t.a = reg 0x01234567090123)) = true := by
  decide

/-- R225. -/
theorem test_step_clrA_up_to_pointer :
    after { State.reset with p := 3, a := reg 0x99999999999999 } 0x2F2 (fun t => decide (t.a = reg 0x99999999990000)) = true := by
  decide

/-- R226. -/
theorem test_step_subABtoA_exponent :
    after { State.reset with a := reg 0x3, b := reg 0x10 } 0x30A (fun t => decide (t.a = reg 0x993 ∧ t.carry = true)) = true := by
  decide

/-- R227. -/
theorem test_step_xchAB_mantissa :
    after { State.reset with a := reg 0x01234567890123, b := reg 0x09999999999999 } 0x326 (fun t => decide (t.a = reg 0x09999999999123 ∧ t.b = reg 0x01234567890999)) = true := by
  decide

/-- R228. -/
theorem test_step_subACtoA_mantissa_and_sign :
    after { State.reset with a := reg 0x01000000000000, c := reg 0x00100000000000 } 0x356 (fun t => decide (t.a = reg 0x00900000000000 ∧ t.carry = false)) = true := by
  decide

/-- R229. -/
theorem test_step_decA_zero_digit :
    after State.reset 0x362 (fun t => decide (t.a = reg 0x9 ∧ t.carry = true)) = true := by
  decide

/-- R230. -/
theorem test_step_addABtoA_mantissa :
    after { State.reset with a := reg 0x06000000000000, b := reg 0x05000000000000 } 0x386 (fun t => decide (t.a = reg 0x01000000000000 ∧ t.carry = true)) = true := by
  decide

/-- vector A24. -/
theorem test_step_addABtoA_non_bcd :
    after { State.reset with a := reg 0xC } 0x38E (fun t => decide (t.a = reg 0x12)) = true := by
  decide

/-- R231. -/
theorem test_step_xchAC_word :
    after { State.reset with a := reg 0x1, c := reg 0x2 } 0x3AE (fun t => decide (t.a = reg 0x2 ∧ t.c = reg 0x1)) = true := by
  decide

/-- R232. -/
theorem test_step_addACtoA_exponent :
    after { State.reset with a := reg 0x99, c := reg 0x1 } 0x3CA (fun t => decide (t.a = reg 0x100 ∧ t.carry = false)) = true := by
  decide

/-- R233. -/
theorem test_step_incA_all_nine :
    after { State.reset with a := reg 0x99999999999999 } 0x3EE (fun t => decide (t.a = reg 0 ∧ t.carry = true)) = true := by
  decide

/-- vector A5. -/
theorem test_step_pointer_out_of_range_faults :
    after { State.reset with a := reg 0x1, c := reg 0x2, p := 14 } 0x1C2 (fun t => decide (t.fault = some ⟨.pointerRange, 0, 0, some 0x1C2⟩ ∧ t.pc = 1 ∧ t.c = reg 0x2)) = true := by
  decide

/-- vector A45. -/
theorem test_step_pointer_fault_before_unmodelled :
    after { State.reset with p := 15, cfg := { Config.default with gkOps := .refuses } } 0x162 (fun t => decide (t.fault = some ⟨.pointerRange, 0, 0, some 0x162⟩)) = true := by
  decide

/-- vector A44. -/
theorem test_step_general_knowledge_refused :
    after { State.reset with b := reg 0x1, cfg := { Config.default with gkOps := .refuses } } 0x02E (fun t => decide (t.fault = some ⟨.unmodelled, 0, 0, some 0x02E⟩ ∧ t.b = reg 0x1)) = true := by
  decide

/-- R140. -/
theorem test_step_call :
    after { State.reset with pc := 0x20 } 0x115 (fun t => decide (t.pc = 0x45 ∧ t.ret = 0x21)) = true := by
  decide

/-- vector C2. -/
theorem test_step_call_wraps :
    after { State.reset with pc := 0xFF, ret := 5 } 0x001 (fun t => decide (t.pc = 0 ∧ t.ret = 0)) = true := by
  decide

/-- vector C6. -/
theorem test_step_brnc_taken :
    after { State.reset with pc := 5, prevCarry := true } 0x043 (fun t => decide (t.pc = 0x10 ∧ t.prevCarry = false)) = true := by
  decide

/-- vector C5. -/
theorem test_step_brnc_not_taken :
    after { State.reset with pc := 5, carry := true } 0x043 (fun t => decide (t.pc = 6 ∧ t.prevCarry = true ∧ t.carry = false)) = true := by
  decide

/-- vector C9. -/
theorem test_step_ret :
    after { State.reset with pc := 0x46, ret := 0x21 } 0x3B0 (fun t => decide (t.pc = 0x21 ∧ t.ret = 0x21)) = true := by
  decide

/-- vector C12. -/
theorem test_step_selrom :
    after { State.reset with pc := 0x50 } 0x190 (fun t => decide (t.pc = 0x51 ∧ t.offset = 3 ∧ t.fault = none)) = true := by
  decide

/-- vector C15. -/
theorem test_step_keyjmp :
    after { State.reset with status := 0x011, pc := 0x12, offset := 1, keyRom := 0x3E, keyValid := true } 0x0D0 (fun t => decide (t.pc = 0x3E ∧ t.status = 0x010 ∧ t.keyValid = false)) = true := by
  decide

/-- vector C14. -/
theorem test_step_keyjmp_stale :
    after { State.reset with pc := 0x12, keyRom := 0x16 } 0x0D0 (fun t => decide (t.pc = 0x13 ∧ t.fault = some ⟨.staleKey, 0, 0x12, some 0x0D0⟩)) = true := by
  decide

/-- vector S1. -/
theorem test_step_tsts :
    after { State.reset with status := 0x020 } 0x154 (fun t => decide (t.carry = true ∧ t.status = 0x020)) = true := by
  decide

/-- vector K5. -/
theorem test_step_tsts_sees_key_of_same_cycle :
    after { State.reset with latch := 0x2B } 0x014 (fun t => decide (t.carry = true ∧ t.keyRom = 0x2B ∧ t.latch = 0xFF ∧ t.keyValid = true)) = true := by
  decide

/-- vector S8. -/
theorem test_step_sets_index_fault :
    after State.reset 0x3C4 (fun t => decide (t.fault = some ⟨.statusIndex, 0, 0, some 0x3C4⟩ ∧ t.status = 0)) = true := by
  decide

/-- R161. -/
theorem test_step_sets :
    after State.reset 0x0C4 (fun t => decide (t.status = 0x008)) = true := by
  decide

/-- vector S5. -/
theorem test_step_clrs :
    after { State.reset with status := 0x003, keyRom := 0x16, keyValid := true } 0x024 (fun t => decide (t.status = 0x002 ∧ t.keyValid = true)) = true := by
  decide

/-- vector S6. -/
theorem test_step_clrst :
    after { State.reset with status := 0xFFF } 0x3F4 (fun t => decide (t.status = 0)) = true := by
  decide

/-- vector S10. -/
theorem test_step_tstp :
    after { State.reset with p := 13 } 0x36C (fun t => decide (t.carry = true ∧ t.p = 13)) = true := by
  decide

/-- vector S13. -/
theorem test_step_setp :
    after { State.reset with p := 3 } 0x3CC (fun t => decide (t.p = 15)) = true := by
  decide

/-- vector S15. -/
theorem test_step_incp_wraps :
    after { State.reset with p := 15 } 0x07C (fun t => decide (t.p = 0 ∧ t.carry = false)) = true := by
  decide

/-- vector S16. -/
theorem test_step_decp_wraps :
    after State.reset 0x3DC (fun t => decide (t.p = 15)) = true := by
  decide

/-- vector P1. -/
theorem test_step_ldc :
    after { State.reset with p := 12 } 0x1D8 (fun t => decide (t.c = reg 0x07000000000000 ∧ t.p = 11)) = true := by
  decide

/-- vector P4. -/
theorem test_step_ldc_pointer_fault :
    after { State.reset with p := 14 } 0x118 (fun t => decide (t.fault = some ⟨.pointerRange, 0, 0, some 0x118⟩ ∧ t.c = reg 0)) = true := by
  decide

/-- vector M1. -/
theorem test_step_xcm :
    after { State.reset with c := reg 0x123, m := reg 0x45600000000000 } 0x0B8 (fun t => decide (t.c = reg 0x45600000000000 ∧ t.m = reg 0x123)) = true := by
  decide

/-- vector M2. -/
theorem test_step_push :
    after { State.reset with c := reg 1, d := reg 2, e := reg 3, f := reg 4 } 0x128 (fun t => decide (t.c = reg 1 ∧ t.d = reg 1 ∧ t.e = reg 2 ∧ t.f = reg 3)) = true := by
  decide

/-- vector M3. -/
theorem test_step_pop :
    after { State.reset with a := reg 9, c := reg 1, d := reg 2, e := reg 3, f := reg 4 } 0x1B8 (fun t => decide (t.a = reg 2 ∧ t.c = reg 1 ∧ t.d = reg 3 ∧ t.e = reg 4 ∧ t.f = reg 4)) = true := by
  decide

/-- vector M4. -/
theorem test_step_mtoc :
    after { State.reset with c := reg 1, m := reg 5 } 0x2A8 (fun t => decide (t.c = reg 5 ∧ t.m = reg 5)) = true := by
  decide

/-- vector M5. -/
theorem test_step_rot_down :
    after { State.reset with c := reg 1, d := reg 2, e := reg 3, f := reg 4 } 0x328 (fun t => decide (t.c = reg 2 ∧ t.d = reg 3 ∧ t.e = reg 4 ∧ t.f = reg 1)) = true := by
  decide

/-- vector M6. -/
theorem test_step_rot_arrow :
    after { State.reset with c := reg 1, d := reg 2, e := reg 3, f := reg 4, cfg := { Config.default with rotate := .arrow } } 0x338 (fun t => decide (t.c = reg 4 ∧ t.d = reg 1 ∧ t.e = reg 2 ∧ t.f = reg 3)) = true := by
  decide

/-- vector M7. -/
theorem test_step_clreg :
    after { State.reset with a := reg 1, b := reg 2, c := reg 3, m := reg 7, t := reg 8 } 0x3B8 (fun t => decide (t.a = reg 0 ∧ t.b = reg 0 ∧ t.c = reg 0 ∧ t.m = reg 0 ∧ t.t = reg 8)) = true := by
  decide

/-- vector M9. -/
theorem test_step_dispoff_clears_update :
    after { State.reset with upd := true } 0x028 (fun t => decide (t.upd = false ∧ t.frame = false)) = true := by
  decide

/-- vector M10. -/
theorem test_step_dispoff_captures :
    after { State.reset with a := reg 0x42, de := true } 0x038 (fun t => decide (t.de = false ∧ t.upd = true ∧ t.frame = true ∧ t.fb = #v[0x00, 0x3F, 0x3F, 0x3F, 0x3F, 0x00, 0x66, 0x5B])) = true := by
  decide

/-- vector M12. -/
theorem test_step_disptog_rises :
    after State.reset 0x238 (fun t => decide (t.de = true ∧ t.upd = false ∧ t.frame = false)) = true := by
  decide

/-- vector M15. -/
theorem test_step_disptog_sequential :
    after { State.reset with de := true, upd := true, cfg := { Config.default with displaySequential := true } } 0x228 (fun t => decide (t.de = true ∧ t.upd = false ∧ t.frame = false)) = true := by
  decide

/-- vectors U1, U2. -/
theorem test_step_undefined_is_nop :
    after { State.reset with a := reg 1, carry := true } 0x3F8 (fun t => decide (t.pc = 1 ∧ t.carry = false ∧ t.prevCarry = true ∧ t.a = reg 1)) = true := by
  decide

/-- vector U4. -/
theorem test_step_undefined_traps :
    after { State.reset with latch := 0x16, cfg := { Config.default with trapOnUndefined := true } } 0x2C8 (fun t => decide (t.fault = some ⟨.undefinedWord, 0, 0, some 0x2C8⟩ ∧ t.status = 1 ∧ t.keyRom = 0x16)) = true := by
  decide

/-- vector E1. -/
theorem test_step_err_rises :
    after { State.reset with pc := 0x10 } 0x2FF (fun t => decide (t.pc = 0xBF ∧ t.err = true)) = true := by
  decide

/-- vector E5. -/
theorem test_step_err_not_updated_on_fault :
    after { State.reset with pc := 0xBE } 0x314 (fun t => decide (t.pc = 0xBF ∧ t.err = false ∧ t.fault.isSome = true)) = true := by
  decide

/-- R262: the state after reset has no image, so its fetch faults; the record has no word. -/
theorem test_step_without_image :
    (match step State.reset with
      | .next t => decide (t.fault = some ⟨.fetchUnpopulated, 0, 0, none⟩ ∧ t.pc = 0)
      | _ => false) = true := by
  decide

/-- R261: a faulted state is stuck. -/
theorem test_step_stuck (r : FaultRecord) :
    step { State.reset with fault := some r } = .fault (.stuck r) := rfl

/-- Vector D4 of 95_test_vectors.md. -/
theorem test_project_exponent :
    project Config.default (reg 0x91500000000903) (reg 0x02099000000000) =
      #v[0x40, 0x86, 0x6D, 0x00, 0x00, 0x40, 0x3F, 0x4F] := by decide

/-- Vector D3 of 95_test_vectors.md. -/
theorem test_project_mantissa :
    project Config.default (reg 0x04600000000000) (reg 0x00299999999999) =
      #v[0x00, 0x66, 0xFD, 0x00, 0x00, 0x00, 0x00, 0x00] := by decide

/-- R291, R265: a key the host writes is in KEY_ROM after the next cycle. -/
theorem test_host_key_reaches_the_core :
    (match runEvents [.host (.keyWrite 0x16), .cycle] (State.reset.withFetchWord 16 0x000) with
      | .next t => decide (t.keyRom = Key.add.code ∧ t.keyValid = true ∧ t.status = 1)
      | _ => false) = true := by
  decide

/-- R62: an image with an H byte whose bits 7..2 are not 0 is refused. -/
theorem test_powerOn_refuses : (match powerOn Config.default [0x04, 0x00] with
      | .refused .imageHighBits => true
      | _ => false) = true := by
  decide

/-! ### Witnesses: for every statement with hypotheses, a state and operands that meet them together -/

theorem witness_DecodeOfEncode : (Instr.undefined 0xF8).wellFormed = true ∧ Instr.clreg.wellFormed = true := by decide

theorem witness_EncodeOfDecode : decode [0x03, 0xB8, 0x12] = .instr .clreg [0x12] := by decide

theorem witness_FamilyOfWord :
    (0x3FD#10).extractLsb' 0 2 = 0b01 ∧ (0x002#10).extractLsb' 0 2 = 0b10 ∧ (0x3FF#10).extractLsb' 0 2 = 0b11 ∧
      (0x000#10).extractLsb' 0 2 = 0b00 := by decide

theorem witness_DecodeRefusals : (0x04#8).extractLsb' 2 6 ≠ 0 ∧ (0x80#8).extractLsb' 2 6 ≠ 0 := by decide

theorem witness_StepRunsDecodedInstruction : ∃ t,
    (State.reset.withFetchWord 16 0x1CE).fault = none ∧
    (State.reset.withFetchWord 16 0x1CE).romPair (State.reset.withFetchWord 16 0x1CE).offset
      (State.reset.withFetchWord 16 0x1CE).pc = some (0x01, 0xCE) ∧
    decode [0x01, 0xCE] = .instr (.addACtoC .w) [] ∧
    exec (.addACtoC .w) ((State.reset.withFetchWord 16 0x1CE).beginCycle.noteFetch
      (some (pairWord 0x01 0xCE))).incrementPc = .next t :=
  ⟨_, rfl, by decide, by decide, rfl⟩

theorem witness_FetchFaultTakesNoInstruction :
    State.reset.fault = none ∧ State.reset.romPair State.reset.offset State.reset.pc = none ∧
    ({ State.reset with offset := 3 } : State).cfg.romBanks ≤ ({ State.reset with offset := 3 } : State).offset.toNat := by
  decide

theorem witness_FaultedStateIsStuck (r : FaultRecord) : ({ State.reset with fault := some r } : State).fault = some r :=
  rfl

theorem witness_ExecCompletesUnlessFault :
    faultOf .keyjmp { State.reset with keyValid := true } = none ∧ faultOf (.ldc 15) { State.reset with p := 13 } = none ∧
    faultOf (.sets 11) State.reset = none ∧ faultOf (.incA .wp) { State.reset with p := 13 } = none ∧
    faultOf (.tstB .w) { State.reset with p := 15 } = none ∧ faultOf (.undefined 0x00) State.reset = none := by
  decide

theorem witness_ExecRaisesTheFault :
    faultOf (.ldc 0) { State.reset with p := 14 } = some .pointerRange ∧
    faultOf (.tstB .p) { State.reset with p := 14, cfg := { Config.default with gkOps := .refuses } } =
      some .pointerRange ∧
    faultOf (.tstB .w) { State.reset with p := 14, cfg := { Config.default with gkOps := .refuses } } =
      some .unmodelled ∧
    faultOf (.tsts 12) State.reset = some .statusIndex ∧ faultOf .keyjmp State.reset = some .staleKey ∧
    faultOf (.undefined 0xC8) { State.reset with cfg := { Config.default with trapOnUndefined := true } } =
      some .undefinedWord := by
  decide

/-- A state with an image, a key waiting, a frame just captured and digits in A and B. -/
def busy (w : Nat) : State :=
  State.withFetchWord
    { State.reset with
      a := reg 0x91500000000903, b := reg 0x02099000000000, latch := 0x16, keyRom := 0x3E, keyValid := true, frame := true,
      upd := true, fb := #v[0x40, 0x86, 0x6D, 0x00, 0x00, 0x40, 0x3F, 0x4F], pc := 191, err := true } 16 w

theorem witness_RunningStateHasNextCycle : (busy 0x2FF).fault = none ∧ (busy 0x2FF).rom.highBitsClear = true := by decide

theorem busy_sound (w : Nat) (h : (busy w).rom.highBitsClear = true) : (busy w).Sound where
  romForm := State.withFetchWord_rom_wf 16 w List.Pairwise.nil
  romHigh := h
  config := show Config.default.wf by decide
  idle := rfl
  key := fun _ => show (0x3E : Byte) ≠ latchEmpty by decide
  frame := fun _ => ⟨rfl, test_project_exponent.symm⟩
  err := fun _ => rfl
  record := nofun

theorem witness_StepKeepsSound : ∃ t, (busy 0x238).Sound ∧ step (busy 0x238) = .next t :=
  ⟨_, busy_sound _ (by decide), rfl⟩

theorem witness_HostActionsKeepSound : ∃ t u v,
    (busy 0x238).Sound ∧ hostStep (.keyWrite 0x3B) (busy 0x238) = .next t ∧
      hostStep .acknowledge (busy 0x238) = .next u ∧ hostStep .reset (busy 0x238) = .next v :=
  ⟨_, _, _, busy_sound _ (by decide), rfl, rfl, rfl⟩

/-- One bank of zeros, for power-on: every bank number is populated or not, at the boundary 1. -/
theorem witness_PowerOnLoadsTheImage :
    ({ Config.default with romBanks := 1 } : Config).wf ∧ (List.replicate 512 (0 : Byte)).length = 1 * 512 ∧
    (∀ (i : Nat) (v : Byte), (List.replicate 512 (0 : Byte))[2 * i]? = some v → v.extractLsb' 2 6 = 0) ∧
    (0 : Bank).toNat < 1 ∧ 1 ≤ (1 : Bank).toNat := by
  refine ⟨by decide, List.length_replicate, fun i v h => ?_, by decide, by decide⟩
  rw [List.getElem?_replicate] at h
  split at h
  · injection h with h
    subst h
    decide
  · cases h

theorem witness_PowerOnRefusesHighBits :
    Config.default.wf ∧ [0x03, 0xFF, 0x04, 0x00].length ≤ Config.default.romBanks * 512 ∧
    ([0x03, 0xFF, 0x04, 0x00] : List Byte)[2 * 1]? = some 0x04 ∧ (0x04 : Byte).extractLsb' 2 6 ≠ 0 := by decide

theorem witness_ImageReadAfterWrite : Memory.wf [(3, 0x12#8), (7, 0x34#8)] := by decide

theorem witness_CycleMovesTheKey : ∃ t u, (busy 0x000).latch ≠ 0xFF ∧ step (busy 0x000) = .next t ∧
    State.reset.latch = 0xFF ∧ step State.reset = .next u ∧ 1 ≤ 11 ∧ 11 < 12 :=
  ⟨_, _, by decide, rfl, rfl, rfl, by decide, by decide⟩

/-- R265, R35: with an empty latch the start of a cycle leaves S and KEY_VALID; with a full one it leaves S[1..11]. -/
theorem test_keyTransfer :
    ({ State.reset with status := 0x802, keyValid := false } : State).beginCycle.status = 0x802 ∧
    ({ State.reset with status := 0x802, keyValid := false } : State).beginCycle.keyValid = false ∧
    ({ State.reset with status := 0x802, latch := 0x16 } : State).beginCycle.status = 0x803 := by decide

theorem witness_HostWritesLatchAndUpd : (0xFE : Byte) ≠ 0xFF := by decide

theorem witness_PrevCarryIsPreviousCarry : ∃ t, step { busy 0x000 with carry := true } = .next t := ⟨_, rfl⟩

theorem witness_CarryOnlyFromCarryWriters : ∃ t, writesCarry .incp = false ∧ exec .incp State.reset = .next t :=
  ⟨_, rfl, rfl⟩

theorem witness_BranchFollowsPreviousCycle :
    (busy 0x0EB).fault = none ∧ (busy 0x0EB).romPair (busy 0x0EB).offset (busy 0x0EB).pc = some (0x00, 0xEB) ∧
    decode [0x00, 0xEB] = .instr (.brnc 0x3A) [] := by decide

theorem witness_WorkingRegisterWriters : ∃ t, exec .incp State.reset = .next t ∧ writesA .incp = false ∧
    writesB .incp = false ∧ writesC .incp = false ∧ writesD .incp = false ∧ writesF .incp = false ∧
    writesM .incp = false ∧ writesT .incp = false :=
  ⟨_, rfl, rfl, rfl, rfl, rfl, rfl, rfl, rfl⟩

theorem witness_ControlRegisterWriters : ∃ t, exec .pop State.reset = .next t ∧ writesStatus .pop = false ∧
    writesPointer .pop = false ∧ writesPc .pop = false ∧ (∀ a, Instr.pop ≠ .call a) ∧ ∀ b, Instr.pop ≠ .selrom b :=
  ⟨_, rfl, rfl, rfl, rfl, nofun, nofun⟩

theorem witness_ExecLeavesTheRest : ∃ t, exec (.shlA .w) State.reset = .next t ∧ writesDisplay (.shlA .w) = false ∧
    Instr.shlA .w ≠ .keyjmp ∧ faultOf (.shlA .w) State.reset = none :=
  ⟨_, rfl, rfl, nofun, rfl⟩

theorem witness_BranchResult : (0x2FF#10).extractLsb' 0 2 = 0b11 ∧ State.reset.prevCarry = false ∧
    ({ State.reset with prevCarry := true } : State).prevCarry = true := by decide

theorem witness_ReturnResult : (0x3B0#10).extractLsb' 0 7 = 0b0110000 := by decide

theorem witness_KeyJumpResult : ({ State.reset with keyValid := true } : State).keyValid = true ∧
    State.reset.keyValid = false := by decide

theorem witness_StatusBitResults : (0#4).toNat < 12 ∧ (11#4).toNat < 12 ∧ 12 ≤ (12#4).toNat ∧ 12 ≤ (15#4).toNat := by
  decide

theorem witness_ClearStatusResult : (0x3F4#10).extractLsb' 0 6 = 0x34 := by decide

theorem witness_PointerResults : (0x3EC#10).extractLsb' 0 6 = 0x2C ∧ (0x3CC#10).extractLsb' 0 6 = 0x0C ∧
    (0x3FC#10).extractLsb' 0 6 = 0x3C ∧ (0x01C#10).extractLsb' 0 6 = 0x1C := by decide

theorem witness_LoadConstantResult : ({ State.reset with p := 13 } : State).p.toNat < 14 ∧
    14 ≤ ({ State.reset with p := 14 } : State).p.toNat := by decide

theorem witness_RegisterMoves :
    ((0x0B8#10).extractLsb' 0 8 &&& 0xEF = 0xA8 ∧ (0x0B8#10).extractLsb' 8 2 = 0) ∧
    ((0x128#10).extractLsb' 0 8 &&& 0xEF = 0x28 ∧ (0x128#10).extractLsb' 8 2 = 1) ∧
    ((0x1B8#10).extractLsb' 0 8 &&& 0xEF = 0xA8 ∧ (0x1B8#10).extractLsb' 8 2 = 1) ∧
    ((0x2A8#10).extractLsb' 0 8 &&& 0xEF = 0xA8 ∧ (0x2A8#10).extractLsb' 8 2 = 2) ∧
    (0x3B8#10).extractLsb' 0 8 &&& 0xEF = 0xA8 ∧ (0x3B8#10).extractLsb' 8 2 = 3 := by decide

theorem witness_RotateResult : State.reset.cfg.rotate = .down ∧
    ({ State.reset with cfg := { Config.default with rotate := .arrow } } : State).cfg.rotate = .arrow := by decide

theorem witness_DisplayInstructionResults : State.reset.cfg.displaySequential = false ∧
    ({ State.reset with cfg := { Config.default with displaySequential := true } } : State).cfg.displaySequential =
      true := by decide

/-- DISPOFF with DE at 1 is a falling edge. -/
theorem witness_CaptureOnFallingEdge_falls : ∃ u,
    ({ busy 0x028 with de := true } : State).fault = none ∧
    ({ busy 0x028 with de := true } : State).romPair 0 191 = some (0x00, 0x28) ∧
    decode [0x00, 0x28] = .instr .dispoff [] ∧
    exec .dispoff (({ busy 0x028 with de := true } : State).beginCycle.noteFetch
      (some (pairWord 0x00 0x28))).incrementPc = .next u ∧
    u.fault = none ∧ ({ busy 0x028 with de := true } : State).de = true ∧ u.de = false :=
  ⟨_, rfl, by decide, by decide, rfl, rfl, rfl, rfl⟩

/-- DISPTOG with DE at 0 is a rising edge. -/
theorem witness_CaptureOnFallingEdge_rises : ∃ u,
    (busy 0x228).fault = none ∧ (busy 0x228).romPair 0 191 = some (0x02, 0x28) ∧
    decode [0x02, 0x28] = .instr .disptog [] ∧
    exec .disptog ((busy 0x228).beginCycle.noteFetch (some (pairWord 0x02 0x28))).incrementPc = .next u ∧
    u.fault = none ∧ ¬ ((busy 0x228).de = true ∧ u.de = false) :=
  ⟨_, rfl, by decide, by decide, rfl, rfl, by decide⟩

/-- TSTS 12 raises StatusIndex in the execute stage. -/
theorem witness_ExecuteFaultEndsTheCycle : ∃ u,
    (busy 0x314).fault = none ∧ (busy 0x314).romPair 0 191 = some (0x03, 0x14) ∧
    decode [0x03, 0x14] = .instr (.tsts 12) [] ∧
    exec (.tsts 12) ((busy 0x314).beginCycle.noteFetch (some (pairWord 0x03 0x14))).incrementPc = .next u ∧
    u.fault ≠ none :=
  ⟨_, rfl, by decide, by decide, rfl, by decide⟩

/-- A cycle that records no fault, and one that does. -/
theorem witness_ErrorSignalOfCycle : ∃ t u, step (busy 0x000) = .next t ∧ t.fault = none ∧
    step (busy 0x314) = .next u ∧ u.fault ≠ none :=
  ⟨_, _, rfl, rfl, rfl, by decide⟩

theorem witness_ProjectionCells :
    Config.default.wf ∧ 8 ≤ (8#4).toNat ∧ (7#4).toNat < 8 ∧ 8 ≤ (Reg.digit (reg 0x870002) 5).toNat ∧
    (Reg.digit (reg 0x870002) 0).toNat = 2 ∧ (Reg.digit (reg 0x870002) 4).toNat < 8 ∧
    (Reg.digit (reg 0x870002) 4).toNat ≠ 2 ∧ 8 ≤ (Reg.digit (reg 8) 0).toNat ∧ (Reg.digit (reg 7) 0).toNat < 8 := by
  decide

/-- D18: a GLYPH with bit 7 set is not admitted. -/
theorem test_powerOn_refuses_glyph :
    (match powerOn { Config.default with glyph := Vector.replicate 16 0x80 } [] with
      | .refused .badConfig => true
      | _ => false) = true := by
  decide

theorem witness_UndefinedWordResult : State.reset.cfg.trapOnUndefined = false ∧
    ({ State.reset with cfg := { Config.default with trapOnUndefined := true } } : State).cfg.trapOnUndefined =
      true := by decide

theorem witness_SliceSelectorTable : (0x3FE#10).extractLsb' 0 2 = 0b10 ∧ (13#4).toNat ≤ 13 ∧ (0#4).toNat ≤ 13 := by
  decide

/-- For the statements about arithmetic opcodes: every slice code has a slice, the pointer-relative ones at both ends of
P's digits, and the general-knowledge opcodes are admitted. -/
theorem witness_arithmetic_slices :
    sliceRange .p ({ State.reset with p := 13 } : State).p = some ⟨13, 13⟩ ∧
    sliceRange .wp ({ State.reset with p := 13 } : State).p = some ⟨0, 13⟩ ∧
    sliceRange .p State.reset.p = some ⟨0, 0⟩ ∧ sliceRange .w ({ State.reset with p := 15 } : State).p = some ⟨0, 13⟩ ∧
    sliceRange .m State.reset.p = some ⟨3, 12⟩ ∧ sliceRange .x State.reset.p = some ⟨0, 2⟩ ∧
    sliceRange .ms State.reset.p = some ⟨3, 13⟩ ∧ sliceRange .xs State.reset.p = some ⟨2, 2⟩ ∧
    sliceRange .s State.reset.p = some ⟨13, 13⟩ ∧ State.reset.cfg.gkOps = .admits := by decide

/-- The digits 0..13 decide whether a register is BCD. -/
theorem bcdReg_of_digits {x : Reg} (h : ∀ i, i < 14 → (x.digit i).toNat ≤ 9) : bcdReg x := fun i => by
  by_cases e : i < 14
  · exact h i e
  · rw [Reg.digit_of_ge x i (by omega)]
    decide

theorem bcdReg_nines : bcdReg (reg 0x99999999999999) := bcdReg_of_digits (by decide)

/-- For AddSliceValue and SubSliceValue: the whole word, and one digit, of all nines. -/
theorem witness_slice_values :
    (DigitRange.mk 0 13).first ≤ (DigitRange.mk 0 13).last ∧ (DigitRange.mk 0 13).last ≤ 13 ∧
    bcdOn ⟨0, 13⟩ (reg 0x99999999999999) ∧ (DigitRange.mk 13 13).first ≤ (DigitRange.mk 13 13).last ∧
    bcdOn ⟨13, 13⟩ (reg 0x99999999999999) :=
  ⟨by decide, by decide, fun i _ => bcdReg_nines i, by decide, fun i _ => bcdReg_nines i⟩

/-- A state whose A, B and C are all nines. -/
def nines : State :=
  { State.reset with a := reg 0x99999999999999, b := reg 0x99999999999999, c := reg 0x99999999999999, p := 13 }

theorem witness_FullWordAdd : bcdReg nines.a ∧ bcdReg nines.b ∧ bcdReg nines.c :=
  ⟨bcdReg_nines, bcdReg_nines, bcdReg_nines⟩

theorem witness_BcdDigitsStayBcd : ∃ t, nines.allBcd ∧ (∀ k, Instr.ldc 9 = .ldc k → k.toNat ≤ 9) ∧
    exec (.ldc 9) nines = .next t := by
  have z : bcdReg Reg.zero := fun i => by rw [Reg.digit_zero]; decide
  refine ⟨_, ⟨bcdReg_nines, bcdReg_nines, bcdReg_nines, z, z, z, z, z⟩, fun k h => ?_, rfl⟩
  injection h with h
  subst h
  decide

end Sys2Proof.Tests
end

/-! The image's read and write (20_memory.md R62, R63; log entry 1): one equation per branch of each, and the
read-after-write law built from them. -/

namespace Sys2Proof.Machine

/-! ### Equations of `Memory.read` and `Memory.write` -/

@[simp] theorem Memory.read_nil (i : Nat) : Memory.read [] i = none := rfl

@[simp] theorem Memory.read_cons (k : Nat) (u : Byte) (m : Memory) (i : Nat) :
    Memory.read ((k, u) :: m) i = if k = i then some u else m.read i := rfl

@[simp] theorem Memory.write_nil (i : Nat) (v : Byte) : Memory.write [] i v = [(i, v)] := rfl

theorem Memory.write_cons_of_lt {k i : Nat} (h : i < k) (u v : Byte) (m : Memory) :
    Memory.write ((k, u) :: m) i v = (i, v) :: (k, u) :: m := if_pos h

@[simp] theorem Memory.write_cons_same (i : Nat) (u v : Byte) (m : Memory) :
    Memory.write ((i, u) :: m) i v = (i, v) :: m := by
  simp [Memory.write]

theorem Memory.write_cons_of_gt {k i : Nat} (h : k < i) (u v : Byte) (m : Memory) :
    Memory.write ((k, u) :: m) i v = (k, u) :: m.write i v := by
  simp [Memory.write, Nat.lt_asymm h, Nat.ne_of_gt h]

/-! ### Reading after a write

Neither law needs the image's form: `read` answers the first pair with its index, and `write` puts the new pair before
every pair with that index. -/

theorem Memory.read_write_same (m : Memory) (i : Nat) (v : Byte) : (m.write i v).read i = some v := by
  induction m with
  | nil => simp
  | cons x m ih =>
    obtain ⟨k, u⟩ := x
    rcases Nat.lt_trichotomy i k with hlt | rfl | hgt
    · simp [Memory.write_cons_of_lt hlt]
    · simp
    · simp [Memory.write_cons_of_gt hgt, Nat.ne_of_lt hgt, ih]

theorem Memory.read_write_of_ne {i j : Nat} (hne : j ≠ i) (m : Memory) (v : Byte) :
    (m.write i v).read j = m.read j := by
  induction m with
  | nil => simp [hne.symm]
  | cons x m ih =>
    obtain ⟨k, u⟩ := x
    rcases Nat.lt_trichotomy i k with hlt | rfl | hgt
    · simp [Memory.write_cons_of_lt hlt, hne.symm]
    · simp [hne.symm]
    · simp [Memory.write_cons_of_gt hgt, ih]

/-- Settles O21: the index written reads the byte put there, every other index reads as before. -/
theorem imageReadAfterWrite : Obligations.ImageReadAfterWrite := by
  intro m i j v _
  split
  next h => exact h ▸ Memory.read_write_same m i v
  next h => exact Memory.read_write_of_ne h m v

end Sys2Proof.Machine

/-! What the execute stage can do (30_encoding.md R94), said once for all instructions: it raises the model fault of
`faultOf`, or it writes no field but those the instruction is a listed writer of (10_state.md R22 to R38). -/

namespace Sys2Proof.Machine

/-! ### The three writers that `Safety.lean` names by a constructor -/

/-- The writers of RET (R30). -/
def writesRet : Instr → Bool
  | .call _ => true
  | _ => false

/-- The writers of OFFSET (R31). -/
def writesOffset : Instr → Bool
  | .selrom _ => true
  | _ => false

/-- The writers of KEY_VALID in the execute stage (R35). -/
def writesKeyValid : Instr → Bool
  | .keyjmp => true
  | _ => false

theorem writesRet_eq_false {i : Instr} (h : ∀ a, i ≠ .call a) : writesRet i = false := by
  cases i with
  | call a => exact absurd rfl (h a)
  | _ => rfl

theorem writesOffset_eq_false {i : Instr} (h : ∀ b, i ≠ .selrom b) : writesOffset i = false := by
  cases i with
  | selrom b => exact absurd rfl (h b)
  | _ => rfl

theorem writesKeyValid_eq_false {i : Instr} (h : i ≠ .keyjmp) : writesKeyValid i = false := by
  cases i with
  | keyjmp => exact absurd rfl h
  | _ => rfl

/-! ### A state changed only where an instruction writes -/

/-- `s` with the value of `u` in every field that `i` is a listed writer of. -/
def State.writtenBy (s : State) (i : Instr) (u : State) : State :=
  { s with
    a := bif writesA i then u.a else s.a
    b := bif writesB i then u.b else s.b
    c := bif writesC i then u.c else s.c
    d := bif writesD i then u.d else s.d
    e := bif writesD i then u.e else s.e
    f := bif writesF i then u.f else s.f
    m := bif writesM i then u.m else s.m
    t := bif writesT i then u.t else s.t
    status := bif writesStatus i then u.status else s.status
    p := bif writesPointer i then u.p else s.p
    pc := bif writesPc i then u.pc else s.pc
    ret := bif writesRet i then u.ret else s.ret
    offset := bif writesOffset i then u.offset else s.offset
    carry := bif writesCarry i then u.carry else s.carry
    keyValid := bif writesKeyValid i then u.keyValid else s.keyValid
    de := bif writesDisplay i then u.de else s.de
    upd := bif writesDisplay i then u.upd else s.upd }

section
variable (s u : State) (i : Instr)

@[simp] theorem State.writtenBy_a : (s.writtenBy i u).a = bif writesA i then u.a else s.a := rfl
@[simp] theorem State.writtenBy_b : (s.writtenBy i u).b = bif writesB i then u.b else s.b := rfl
@[simp] theorem State.writtenBy_c : (s.writtenBy i u).c = bif writesC i then u.c else s.c := rfl
@[simp] theorem State.writtenBy_d : (s.writtenBy i u).d = bif writesD i then u.d else s.d := rfl
@[simp] theorem State.writtenBy_e : (s.writtenBy i u).e = bif writesD i then u.e else s.e := rfl
@[simp] theorem State.writtenBy_f : (s.writtenBy i u).f = bif writesF i then u.f else s.f := rfl
@[simp] theorem State.writtenBy_m : (s.writtenBy i u).m = bif writesM i then u.m else s.m := rfl
@[simp] theorem State.writtenBy_t : (s.writtenBy i u).t = bif writesT i then u.t else s.t := rfl
@[simp] theorem State.writtenBy_status :
    (s.writtenBy i u).status = bif writesStatus i then u.status else s.status := rfl
@[simp] theorem State.writtenBy_p : (s.writtenBy i u).p = bif writesPointer i then u.p else s.p := rfl
@[simp] theorem State.writtenBy_pc : (s.writtenBy i u).pc = bif writesPc i then u.pc else s.pc := rfl
@[simp] theorem State.writtenBy_ret : (s.writtenBy i u).ret = bif writesRet i then u.ret else s.ret := rfl
@[simp] theorem State.writtenBy_offset :
    (s.writtenBy i u).offset = bif writesOffset i then u.offset else s.offset := rfl
@[simp] theorem State.writtenBy_carry :
    (s.writtenBy i u).carry = bif writesCarry i then u.carry else s.carry := rfl
@[simp] theorem State.writtenBy_prevCarry : (s.writtenBy i u).prevCarry = s.prevCarry := rfl
@[simp] theorem State.writtenBy_keyRom : (s.writtenBy i u).keyRom = s.keyRom := rfl
@[simp] theorem State.writtenBy_keyValid :
    (s.writtenBy i u).keyValid = bif writesKeyValid i then u.keyValid else s.keyValid := rfl
@[simp] theorem State.writtenBy_latch : (s.writtenBy i u).latch = s.latch := rfl
@[simp] theorem State.writtenBy_de : (s.writtenBy i u).de = bif writesDisplay i then u.de else s.de := rfl
@[simp] theorem State.writtenBy_upd : (s.writtenBy i u).upd = bif writesDisplay i then u.upd else s.upd := rfl
@[simp] theorem State.writtenBy_fb : (s.writtenBy i u).fb = s.fb := rfl
@[simp] theorem State.writtenBy_frame : (s.writtenBy i u).frame = s.frame := rfl
@[simp] theorem State.writtenBy_err : (s.writtenBy i u).err = s.err := rfl
@[simp] theorem State.writtenBy_fault : (s.writtenBy i u).fault = s.fault := rfl
@[simp] theorem State.writtenBy_fetched : (s.writtenBy i u).fetched = s.fetched := rfl
@[simp] theorem State.writtenBy_rom : (s.writtenBy i u).rom = s.rom := rfl
@[simp] theorem State.writtenBy_cfg : (s.writtenBy i u).cfg = s.cfg := rfl

end

/-! ### The two outcomes of the execute stage -/

/-- The execute stage of `i` raises the fault that the table of R261 names. -/
def Faults (i : Instr) (s : State) : Prop := ∃ k, faultOf i s = some k ∧ exec i s = .next (s.raise k)

/-- The table of R261 names no fault, and `i` writes only where it is a listed writer. -/
def Completes (i : Instr) (s : State) : Prop :=
  faultOf i s = none ∧ ∃ u, exec i s = .next (s.writtenBy i u)

theorem completes_of_next {i : Instr} {s t : State} (hf : faultOf i s = none) (he : exec i s = .next t)
    (ht : t = s.writtenBy i t) : Completes i s := ⟨hf, t, ht ▸ he⟩

/-! ### The shared skeletons -/

theorem faultOf_of_arithmeticForm {i : Instr} {gk : Bool} {f : SliceCode} (h : arithmeticForm i = some (gk, f))
    (s : State) : faultOf i s = arithFault gk f s := by
  simp only [faultOf, h]

/-- An arithmetic opcode faults or completes, if its body writes only where the opcode is a listed writer (R200). -/
theorem faults_or_completes_of_arith {i : Instr} {gk : Bool} {f : SliceCode} {s : State} {body : DigitRange → State}
    (hform : arithmeticForm i = some (gk, f)) (he : exec i s = arith gk f s body)
    (hbody : ∀ r, body r = s.writtenBy i (body r)) : Faults i s ∨ Completes i s := by
  have hf := faultOf_of_arithmeticForm hform s
  have hnone := sliceRange_eq_none_iff f s.p
  have hin {r : DigitRange} (hr : sliceRange f s.p = some r) : ¬ ((f = .p ∨ f = .wp) ∧ s.pointerOut) :=
    fun h => by simp [hnone.2 h] at hr
  rcases arith_cases gk f s body with ⟨hr, e⟩ | ⟨r, hr, hgk, hcfg, e⟩ | ⟨r, hr, hgk, e⟩
  · exact .inl ⟨_, hf.trans (if_pos (hnone.1 hr)), he.trans e⟩
  · exact .inl ⟨_, hf.trans ((if_neg (hin hr)).trans (if_pos ⟨hgk, hcfg⟩)), he.trans e⟩
  · exact .inr (completes_of_next (hf.trans ((if_neg (hin hr)).trans (if_neg hgk))) (he.trans e) (hbody r))

/-- A status instruction faults or completes, if its body writes only where it is a listed writer (R164). -/
theorem faults_or_completes_of_onStatusBit {i : Instr} {n : Nibble} {s : State} {body : Nat → State}
    (hf : faultOf i s = if 12 ≤ n.toNat then some .statusIndex else none) (he : exec i s = onStatusBit n s body)
    (hbody : ∀ j, body j = s.writtenBy i (body j)) : Faults i s ∨ Completes i s := by
  rcases onStatusBit_cases n s body with ⟨hn, e⟩ | ⟨hn, e⟩
  · exact .inr (completes_of_next (hf.trans (if_neg (by omega))) (he.trans e) (hbody _))
  · exact .inl ⟨_, hf.trans (if_pos hn), he.trans e⟩

/-! ### The instructions with a condition of their own -/

theorem keyjmp_faults_or_completes (s : State) : Faults .keyjmp s ∨ Completes .keyjmp s := by
  cases h : s.keyValid with
  | true => exact .inr (completes_of_next (if_pos h) (if_pos h) rfl)
  | false => exact .inl ⟨_, if_neg (by simp [h]), if_neg (by simp [h])⟩

theorem undefined_faults_or_completes (l : Byte) (s : State) : Faults (.undefined l) s ∨ Completes (.undefined l) s := by
  cases h : s.cfg.trapOnUndefined with
  | true => exact .inl ⟨_, if_pos h, if_pos h⟩
  | false => exact .inr (completes_of_next (if_neg (by simp [h])) (if_neg (by simp [h])) rfl)

theorem ldc_faults_or_completes (k : Nibble) (s : State) : Faults (.ldc k) s ∨ Completes (.ldc k) s := by
  have he : exec (.ldc k) s = execLdc k s := rfl
  rcases pointerDigit_cases s.p with ⟨hp, e⟩ | ⟨hp, e⟩
  · exact .inr (completes_of_next (if_neg (Nat.not_le.2 hp)) (he.trans (by simp only [execLdc, e]; rfl)) rfl)
  · exact .inl ⟨_, if_pos hp, he.trans (by simp only [execLdc, e])⟩

/-- Both readings of ROT write C, D, E and F only (R185, decision D13). -/
theorem rot_completes (s : State) : Completes .rot s := by
  have he : exec .rot s = execRot s := rfl
  cases h : s.cfg.rotate with
  | down => exact completes_of_next rfl (he.trans (by simp only [execRot, h]; rfl)) rfl
  | arrow => exact completes_of_next rfl (he.trans (by simp only [execRot, h]; rfl)) rfl

/-- Both readings of DISPOFF write DE and UPD only (R187, R188, decision D14). -/
theorem dispoff_completes (s : State) : Completes .dispoff s := by
  refine completes_of_next rfl rfl ?_
  split <;> rfl

/-- Both readings of DISPTOG write DE and UPD only (R188, decision D14). -/
theorem disptog_completes (s : State) : Completes .disptog s := by
  refine completes_of_next rfl rfl ?_
  split <;> rfl

/-! ### Every instruction -/

theorem exec_faults_or_completes (i : Instr) (s : State) : Faults i s ∨ Completes i s := by
  cases i with
  | tstB f | clrB f | subACtoT f | tstDecC f | movBC f | negC f | clrC f | nineC f | shlA f | movAB f | subACtoC f
  | decC f | movCA f | tstC f | addACtoC f | incC f | subABtoT f | xchBC f | shrC f | tstDecA f | shrB f | dblC f
  | shrA f | clrA f | subABtoA f | xchAB f | subACtoA f | decA f | addABtoA f | xchAC f | addACtoA f | incA f =>
    exact faults_or_completes_of_arith rfl rfl fun _ => rfl
  | tsts n | sets n | clrs n => exact faults_or_completes_of_onStatusBit rfl rfl fun _ => rfl
  | keyjmp => exact keyjmp_faults_or_completes s
  | undefined l => exact undefined_faults_or_completes l s
  | ldc k => exact ldc_faults_or_completes k s
  | rot => exact .inr (rot_completes s)
  | dispoff => exact .inr (dispoff_completes s)
  | disptog => exact .inr (disptog_completes s)
  | call _ | brnc _ | ret | selrom _ | clrst | tstp _ | setp _ | incp | decp | xcm | push | pop | mtoc | clreg =>
    exact .inr (completes_of_next rfl rfl rfl)

/-- The inversion of `exec`: what an execute stage that answers a next state did. -/
theorem exec_next_inv {i : Instr} {s t : State} (h : exec i s = .next t) :
    (∃ k, faultOf i s = some k ∧ t = s.raise k) ∨ (faultOf i s = none ∧ ∃ u, t = s.writtenBy i u) := by
  rcases exec_faults_or_completes i s with ⟨k, hf, e⟩ | ⟨hf, u, e⟩
  · exact .inl ⟨k, hf, by injection h.symm.trans e⟩
  · exact .inr ⟨hf, u, by injection h.symm.trans e⟩

end Sys2Proof.Machine

/-! Who writes what in the execute stage (10_state.md R22 to R39): read off the inversion of `exec`, one clause per
field. -/

namespace Sys2Proof.Machine

/-- Settles O25: a fault leaves CARRY, and an instruction that completes writes it only as a listed writer. -/
theorem carryOnlyFromCarryWriters : Obligations.CarryOnlyFromCarryWriters := by
  refine ⟨fun i s t hw h => ?_, State.beginCycle_carry⟩
  rcases exec_next_inv h with ⟨k, _, rfl⟩ | ⟨_, u, rfl⟩
  · exact State.raise_carry s k
  · simp [hw]

/-- Settles O27. -/
theorem workingRegisterWriters : Obligations.WorkingRegisterWriters := by
  intro i s t h
  rcases exec_next_inv h with ⟨k, _, rfl⟩ | ⟨_, u, rfl⟩
  · simp
  · simp +contextual

/-- Settles O28. -/
theorem controlRegisterWriters : Obligations.ControlRegisterWriters := by
  intro i s t h
  rcases exec_next_inv h with ⟨k, _, rfl⟩ | ⟨_, u, rfl⟩
  · simp
  · simp +contextual [writesRet_eq_false, writesOffset_eq_false]

/-- Settles O29: a fault writes FAULT and FRAME, and no instruction is a listed writer of the rest. -/
theorem execLeavesTheRest : Obligations.ExecLeavesTheRest := by
  intro i s t h
  rcases exec_next_inv h with ⟨k, hf, rfl⟩ | ⟨_, u, rfl⟩
  · simp [hf]
  · simp +contextual [writesKeyValid_eq_false]

end Sys2Proof.Machine

/-! The start of a microcycle and what a whole cycle keeps of it (30_encoding.md R90, R91; 60_exceptions.md R265). -/

namespace Sys2Proof.Machine

/-! ### The key latch -/

theorem State.keyLatched_of_full {s : State} (h : s.latch ≠ 0xFF) : s.keyLatched = true := s.keyLatched_iff.2 h

theorem State.keyLatched_of_empty {s : State} (h : s.latch = 0xFF) : s.keyLatched = false := by
  simp [State.keyLatched, latchEmpty, h]

/-- The start of a cycle empties the latch (R265). -/
theorem State.beginCycle_latch_empty (s : State) : s.beginCycle.latch = 0xFF := by
  by_cases h : s.latch = 0xFF
  · simp [State.keyLatched_of_empty h, h]
  · simp [State.keyLatched_of_full h, latchEmpty]

/-- KEY_ROM after the start of a cycle: the code of a full latch (R34, R265). -/
theorem State.beginCycle_keyRom_eq (s : State) :
    s.beginCycle.keyRom = if s.latch = 0xFF then s.keyRom else s.latch := by
  by_cases h : s.latch = 0xFF
  · simp [State.keyLatched_of_empty h, h]
  · rw [if_neg h]; simp [State.keyLatched_of_full h]

/-- What the start of a cycle writes (R90, R91, R265). -/
theorem State.beginCycle_writes (s : State) : s.beginCycle = { s with
    status := s.beginCycle.status, keyValid := s.beginCycle.keyValid, keyRom := s.beginCycle.keyRom, latch := 0xFF,
    prevCarry := s.carry, carry := false } := by
  rw [← s.beginCycle_latch_empty]
  rfl

/-! ### What the later stages of a cycle keep -/

/-- The latch, KEY_ROM and PREV_CARRY after a cycle are those of its start: neither a fetch fault nor an instruction
nor the end of the cycle writes them (R33, R34, R36). -/
theorem step_keeps_start {s t : State} (h : step s = .next t) :
    t.latch = s.beginCycle.latch ∧ t.keyRom = s.beginCycle.keyRom ∧ t.prevCarry = s.beginCycle.prevCarry := by
  obtain ⟨_, ⟨_, rfl⟩ | ⟨x, y, i, rest, u, _, _, hu, rfl⟩⟩ := step_next_inv h
  · exact ⟨rfl, rfl, rfl⟩
  · obtain ⟨_, _, hprev, hkey, hlatch, _⟩ := execLeavesTheRest i _ u hu
    simp only [State.endCycle_latch, State.endCycle_keyRom, State.endCycle_prevCarry]
    exact ⟨hlatch, hkey, hprev⟩

/-- Settles O22. -/
theorem cycleMovesTheKey : Obligations.CycleMovesTheKey := by
  refine ⟨fun s hfull => ?_, fun s hempty => ?_, State.beginCycle_writes, fun s t h => ?_⟩
  · have hk := State.keyLatched_of_full hfull
    have hs : s.beginCycle.status = setStatusBit s.status 0 := by simp [hk]
    refine ⟨?_, by simp [hk], by simp [hk], fun j hj _ => ?_⟩
    · rw [hs, statusBit_set _ _ _ (by omega), if_pos rfl]
    · rw [hs, statusBit_set _ _ _ (by omega), if_neg (by omega)]
  · simp [State.keyLatched_of_empty hempty]
  · obtain ⟨hlatch, hkey, _⟩ := step_keeps_start h
    exact ⟨hlatch.trans s.beginCycle_latch_empty, hkey.trans s.beginCycle_keyRom_eq⟩

/-- Settles O24: the carry sample is the last write of PREV_CARRY in a cycle. -/
theorem prevCarryIsPreviousCarry : Obligations.PrevCarryIsPreviousCarry := by
  intro s t h
  obtain ⟨_, _, hprev⟩ := step_keeps_start h
  exact hprev.trans s.beginCycle_prevCarry

end Sys2Proof.Machine

/-! The state after reset (10_state.md R45, R46; 70_reset_and_hazards.md R300). -/

namespace Sys2Proof.Machine

/-- Settles O15. -/
theorem resetSound : Obligations.ResetSound where
  romForm := Memory.reset_wf
  romHigh := rfl
  config := show Config.default.wf by decide
  idle := rfl
  key := nofun
  frame := nofun
  err := fun _ => rfl
  record := nofun

/-- Settles O17: the eight digit registers are `Reg.zero`, and the rest is 0 as the reset state writes it. -/
theorem resetRegisterFile : Obligations.ResetRegisterFile := by
  refine ⟨fun x hx i _ => ?_, fun i _ => ?_, rfl, rfl, rfl, rfl, rfl, rfl⟩
  · have hzero : x = Reg.zero := by simpa [State.reset] using hx
    rw [hzero, Reg.digit_zero]
  · exact BitVec.getLsbD_zero

/-- Settles O18: the fields of the reset state, and the reset event from any state. -/
theorem resetOtherStateAndEvent : Obligations.ResetOtherStateAndEvent := by
  refine ⟨rfl, rfl, rfl, rfl, rfl, fun i h => ?_, rfl, rfl, rfl, fun s => ⟨s.resetEvent, rfl, rfl⟩⟩
  exact Vector.getElem_replicate h

end Sys2Proof.Machine

/-! Loading an image at power-on (20_memory.md R62, R63; 70_reset_and_hazards.md R303) and the pairs the decoder and the
fetch have no word for. -/

namespace Sys2Proof.Machine

/-! ### The image of a sequence of bytes -/

/-- Byte `n` of a sequence loaded from index `i` is at index `i + n`, and past the sequence there is no byte. -/
theorem Memory.read_ofBytes (i n : Nat) (vs : List Byte) : (Memory.ofBytes i vs).read (i + n) = vs[n]? := by
  induction vs generalizing i n with
  | nil => rfl
  | cons v vs ih =>
    cases n with
    | zero => simp [Memory.ofBytes]
    | succ n =>
      have hne : i ≠ (i + 1) + n := by omega
      have hn : i + (n + 1) = (i + 1) + n := by omega
      simp [Memory.ofBytes, hn, hne, ih]

/-- A cell of a loaded image is a byte of the sequence, at its index. -/
theorem Memory.getElem?_of_mem_ofBytes {i : Nat} {vs : List Byte} {x : Host.Cell} (h : x ∈ Memory.ofBytes i vs) :
    ∃ n, x.1 = i + n ∧ vs[n]? = some x.2 := by
  induction vs generalizing i with
  | nil => simp [Memory.ofBytes] at h
  | cons v vs ih =>
    rcases List.mem_cons.1 h with rfl | h
    · exact ⟨0, rfl, rfl⟩
    · obtain ⟨n, hx, hv⟩ := ih h
      exact ⟨n + 1, by omega, hv⟩

/-- The image check of R62 on a loaded image is a check of the bytes at the even positions of the sequence. -/
theorem Memory.highBitsClear_ofBytes_iff (vs : List Byte) :
    (Memory.ofBytes 0 vs).highBitsClear = true ↔
      ∀ (i : Nat) (v : Byte), vs[2 * i]? = some v → v.extractLsb' 2 6 = 0 := by
  constructor
  · intro h i v hv
    have hread : (Memory.ofBytes 0 vs).read (2 * i) = some v := by
      rw [← Nat.zero_add (2 * i), Memory.read_ofBytes, hv]
    exact Memory.read_even_high h (by omega) hread
  · intro h
    refine List.all_eq_true.2 fun x hx => ?_
    obtain ⟨n, hn, hv⟩ := Memory.getElem?_of_mem_ofBytes hx
    rcases Nat.mod_two_eq_zero_or_one n with he | ho
    · have hhalf : 2 * (n / 2) = n := by omega
      simp [h (n / 2) x.2 (by rw [hhalf, hv])]
    · simp [hn, ho]

/-! ### Which pairs there are -/

/-- A bank at or past `ROM_BANKS` holds no word (R63). -/
theorem State.romPair_of_unpopulated {s : State} {bank : Bank} (h : s.cfg.romBanks ≤ bank.toNat) (a : Byte) :
    s.romPair bank a = none := if_neg (Nat.not_lt.2 h)

/-- In a populated bank of a fully loaded image the fetch finds the two bytes at `bank * 512 + a * 2` (R62, R63). -/
theorem State.romPair_of_loaded {s : State} {image : List Byte} (hrom : s.rom = Memory.ofBytes 0 image)
    (hlen : image.length = s.cfg.romBanks * 512) {bank : Bank} (hbank : bank.toNat < s.cfg.romBanks) (a : Byte) :
    ∃ h l, s.romPair bank a = some (h, l) ∧
      image[bank.toNat * 512 + a.toNat * 2]? = some h ∧ image[bank.toNat * 512 + a.toNat * 2 + 1]? = some l := by
  have hread (n : Nat) : s.rom.read n = image[n]? := by
    rw [hrom, ← Nat.zero_add n, Memory.read_ofBytes, Nat.zero_add]
  have hin : bank.toNat * 512 + a.toNat * 2 + 1 < image.length := by
    have ha := a.isLt
    omega
  have hhigh := List.getElem?_eq_getElem (Nat.lt_of_succ_lt hin)
  have hlow := List.getElem?_eq_getElem hin
  exact ⟨_, _, (s.romPair_eq_some_iff ..).2 ⟨hbank, (hread _).trans hhigh, (hread _).trans hlow⟩, hhigh, hlow⟩

/-! ### The two answers of power-on to an image of legal length -/

/-- The reset state with parameters `k` and an image loaded (R303). -/
abbrev State.loaded (k : Config) (image : List Byte) : State :=
  { State.reset with rom := Memory.ofBytes 0 image, cfg := k }

section
variable {k : Config} {image : List Byte} (hk : k.wf) (hlen : image.length ≤ k.romBanks * 512)
include hk hlen

theorem powerOn_of_clear (hclear : (Memory.ofBytes 0 image).highBitsClear = true) :
    powerOn k image = .next (State.loaded k image) :=
  (if_pos hk).trans ((if_neg (Nat.not_lt.2 hlen)).trans (if_pos hclear))

theorem powerOn_of_not_clear (hclear : (Memory.ofBytes 0 image).highBitsClear ≠ true) :
    powerOn k image = .refused .imageHighBits :=
  (if_pos hk).trans ((if_neg (Nat.not_lt.2 hlen)).trans (if_neg hclear))

end

/-- Settles O19. -/
theorem powerOnLoadsTheImage : Obligations.PowerOnLoadsTheImage := by
  intro k image hk hlen hclear
  have hon := powerOn_of_clear hk hlen.le ((Memory.highBitsClear_ofBytes_iff image).2 hclear)
  exact ⟨State.loaded k image, hon, rfl, fun _ a =>
    ⟨fun hbank => State.romPair_of_loaded (s := State.loaded k image) rfl hlen hbank a,
      fun hbank => State.romPair_of_unpopulated hbank a⟩⟩

/-- Settles O20: the byte at `2 * i` fails the image check. -/
theorem powerOnRefusesHighBits : Obligations.PowerOnRefusesHighBits := by
  intro k image i v hk hlen hv hhigh
  exact powerOn_of_not_clear hk hlen fun hclear =>
    hhigh ((Memory.highBitsClear_ofBytes_iff image).1 hclear i v hv)

/-! ### Bytes and fetches with no word -/

/-- Settles O7: the three branches of `decode` that refuse. -/
theorem decodeRefusals : Obligations.DecodeRefusals :=
  ⟨rfl, fun _ => rfl, fun _ _ _ hhigh => if_neg hhigh⟩

/-- A running state with no word to fetch takes the fetch fault (R262). -/
theorem step_of_no_word {s : State} (hrun : s.fault = none) (hpair : s.romPair s.offset s.pc = none) :
    step s = .next s.beginCycle.fetchFault := by
  simp [step, hrun, hpair]

/-- Settles O9. -/
theorem fetchFaultTakesNoInstruction : Obligations.FetchFaultTakesNoInstruction := fun _ hrun =>
  ⟨fun hpair => step_of_no_word hrun hpair, fun hbank => State.romPair_of_unpopulated hbank _⟩

end Sys2Proof.Machine

/-! Every cycle keeps a sound state sound (`State.Sound`): what a cycle writes is read off its three ways to end, one
lemma per clause of the invariant. -/

namespace Sys2Proof.Machine

/-! ### The three ways a cycle ends -/

/-- The state that the execute stage starts from, the word `w` fetched: steps 1 to 4 of R90 are done. -/
abbrev State.atExecute (s : State) (w : MicroWord) : State := (s.beginCycle.noteFetch (some w)).incrementPc

/-- The end of a cycle whose execute stage raised no fault: steps 6 and 7 of R90. -/
abbrev State.afterExecute (u : State) (de0 : Bool) : State := (u.captureFrame de0).updateErr.endFetch

/-- The three ways a cycle ends: with the fetch fault, with a fault of the execute stage, or complete. -/
theorem step_next_cases {s t : State} (h : step s = .next t) :
    t = s.beginCycle.fetchFault ∨
    (∃ i w k, faultOf i (s.atExecute w) = some k ∧ t = ((s.atExecute w).raise k).endFetch) ∨
    ∃ i w u, exec i (s.atExecute w) = .next u ∧ u.fault = none ∧ t = u.afterExecute s.de := by
  obtain ⟨hrun, ⟨_, rfl⟩ | ⟨x, y, i, rest, u, _, _, hu, rfl⟩⟩ := step_next_inv h
  · exact .inl rfl
  · refine .inr ?_
    rcases exec_next_inv hu with ⟨k, hk, rfl⟩ | ⟨_, v, hv⟩
    · have hfault : ((s.atExecute (pairWord x y)).raise k).fault.isSome = true := by simp
      exact .inl ⟨i, pairWord x y, k, hk, State.endCycle_of_fault hfault s.de⟩
    · have hu' : u.fault = none := by simp [hv, hrun]
      exact .inr ⟨i, pairWord x y, u, hu, hu', State.endCycle_of_running hu' s.de⟩

/-! ### What a cycle keeps -/

/-- No instruction writes the image or the parameters (R60, R72). -/
theorem exec_keeps_rom_cfg {i : Instr} {s t : State} (h : exec i s = .next t) : t.rom = s.rom ∧ t.cfg = s.cfg := by
  rcases exec_next_inv h with ⟨k, _, rfl⟩ | ⟨_, u, rfl⟩ <;> exact ⟨rfl, rfl⟩

theorem step_keeps_rom_cfg {s t : State} (h : step s = .next t) : t.rom = s.rom ∧ t.cfg = s.cfg := by
  rcases step_next_cases h with rfl | ⟨i, w, k, _, rfl⟩ | ⟨i, w, u, hu, _, rfl⟩
  · simp
  · simp
  · obtain ⟨hrom, hcfg⟩ := exec_keeps_rom_cfg hu
    simp [hrom, hcfg]

/-- No cycle is in progress when a cycle has ended (log entry 5). -/
theorem step_fetched_idle {s t : State} (h : step s = .next t) : t.fetched = Fetched.idle := by
  rcases step_next_cases h with rfl | ⟨i, w, k, _, rfl⟩ | ⟨i, w, u, _, _, rfl⟩ <;> rfl

/-! ### The transferred key -/

/-- No instruction sets KEY_VALID: KEYJMP clears it, or faults and leaves it (R35, R147). -/
theorem keyValid_of_exec {i : Instr} {s t : State} (h : exec i s = .next t) (hv : t.keyValid = true) :
    s.keyValid = true := by
  by_cases hi : i = .keyjmp
  · subst hi
    cases hs : s.keyValid with
    | true => rfl
    | false =>
      have hstale : exec .keyjmp s = .next (s.raise .staleKey) := if_neg (by simp [hs])
      obtain rfl : s.raise .staleKey = t := by injection hstale.symm.trans h
      exact hs.symm.trans hv
  · obtain ⟨_, _, _, _, _, _, _, _, _, hkeep, _⟩ := execLeavesTheRest i s t h
    exact (hkeep hi).symm.trans hv

/-- KEY_VALID after a cycle is the transfer's at its start, or was cleared (R35, R265). -/
theorem keyValid_of_step {s t : State} (h : step s = .next t) (hv : t.keyValid = true) :
    s.beginCycle.keyValid = true := by
  rcases step_next_cases h with rfl | ⟨i, w, k, _, rfl⟩ | ⟨i, w, u, hu, _, rfl⟩
  · exact hv
  · exact hv
  · have hstart : (s.atExecute w).keyValid = true := keyValid_of_exec hu hv
    exact hstart

/-- The key transfer never delivers the code that means an empty latch (R36, R267). -/
theorem State.beginCycle_key {s : State} (hkey : s.keyValid = true → s.keyRom ≠ latchEmpty)
    (hv : s.beginCycle.keyValid = true) : s.beginCycle.keyRom ≠ latchEmpty := by
  cases hl : s.keyLatched with
  | true => simpa [hl] using s.keyLatched_iff.1 hl
  | false =>
    have hs : s.keyValid = true := by simpa [hl] using hv
    simpa [hl] using hkey hs

/-! ### The outputs and the fault record at the end of a cycle -/

/-- FRAME is 1 only after a cycle that captured: DE fell, and FB is the projection of A and B (R271, R272). -/
theorem frame_of_step {s t : State} (h : step s = .next t) (hframe : t.frame = true) :
    t.de = false ∧ t.fb = project t.cfg t.a t.b := by
  rcases step_next_cases h with rfl | ⟨i, w, k, _, rfl⟩ | ⟨i, w, u, _, _, rfl⟩
  · cases hframe
  · cases hframe
  · have hfell : u.displayFell s.de = true := hframe
    obtain ⟨_, hde⟩ := (u.displayFell_iff s.de).1 hfell
    exact ⟨hde, by simp [hfell]⟩

/-- ERR after a cycle that recorded no fault shows the error address (R280). -/
theorem err_of_step {s t : State} (h : step s = .next t) (hrun : t.fault = none) : t.err = t.atErrorAddress := by
  rcases step_next_cases h with rfl | ⟨i, w, k, _, rfl⟩ | ⟨i, w, u, _, _, rfl⟩
  · cases hrun
  · cases hrun
  · rfl

theorem arithFault_ne_fetchUnpopulated (gk : Bool) (f : SliceCode) (s : State) :
    arithFault gk f s ≠ some .fetchUnpopulated := by
  unfold arithFault
  repeat' split
  all_goals simp

/-- No instruction raises the fault of a fetch: each row of the table of R261 names another kind (R262). -/
theorem faultOf_ne_fetchUnpopulated (i : Instr) (s : State) : faultOf i s ≠ some .fetchUnpopulated := by
  unfold faultOf
  split
  · exact arithFault_ne_fetchUnpopulated _ _ s
  · repeat' split
    all_goals simp

/-- The record of a cycle that faulted has a word exactly when the fetch did not fault (R261). -/
theorem record_of_step {s t : State} (h : step s = .next t) {r : FaultRecord} (hr : t.fault = some r) :
    r.word = none ↔ r.kind = .fetchUnpopulated := by
  rcases step_next_cases h with rfl | ⟨i, w, k, hk, rfl⟩ | ⟨i, w, u, _, hrun, rfl⟩
  · obtain rfl := Option.some.inj hr
    exact iff_of_true rfl rfl
  · obtain rfl := Option.some.inj hr
    have hkind : k ≠ .fetchUnpopulated := fun e => faultOf_ne_fetchUnpopulated i _ (hk.trans (congrArg some e))
    exact iff_of_false (Option.some_ne_none w) hkind
  · cases hrun.symm.trans hr

/-- Settles O14, one clause of the invariant at a time. Only the image, the parameters and the key code lean on the
state before the cycle; every cycle sets up the other clauses anew. -/
theorem stepKeepsSound : Obligations.StepKeepsSound := by
  intro s t hs h
  obtain ⟨hrom, hcfg⟩ := step_keeps_rom_cfg h
  obtain ⟨_, hkeyRom, _⟩ := step_keeps_start h
  exact {
    romForm := hrom ▸ hs.romForm
    romHigh := hrom ▸ hs.romHigh
    config := hcfg ▸ hs.config
    idle := step_fetched_idle h
    key := fun hv => hkeyRom ▸ State.beginCycle_key hs.key (keyValid_of_step h hv)
    frame := frame_of_step h
    err := err_of_step h
    record := fun _ => record_of_step h }

end Sys2Proof.Machine

/-! The decoder as the table of formats (30_encoding.md R84, R85), without the order of R85's `elif` chain: the rows are
disjoint (R86), so a word decodes to an instruction exactly when it has that instruction's format. The encoder is the
same table read from the instruction to its word with the ignored bits at 0 (R105). -/

namespace Sys2Proof

open Machine (familyOf)

/-! ### The low fields, each a part of the next longer one (R82) -/

theorem extractLsb'_tag_eq (w : MicroWord) : w.extractLsb' 0 2 = (fieldL w).extractLsb' 0 2 :=
  (BitVec.extractLsb'_extractLsb'_of_le (by decide)).symm

theorem fieldL7f_eq (w : MicroWord) : fieldL7f w = (fieldL w).extractLsb' 0 7 :=
  (BitVec.extractLsb'_extractLsb'_of_le (by decide)).symm

theorem fieldL3f_eq (w : MicroWord) : fieldL3f w = (fieldL w).extractLsb' 0 6 :=
  (BitVec.extractLsb'_extractLsb'_of_le (by decide)).symm

theorem extractLsb'_tag_eq_l7f (w : MicroWord) : w.extractLsb' 0 2 = (fieldL7f w).extractLsb' 0 2 :=
  (BitVec.extractLsb'_extractLsb'_of_le (by decide)).symm

theorem extractLsb'_tag_eq_l3f (w : MicroWord) : w.extractLsb' 0 2 = (fieldL3f w).extractLsb' 0 2 :=
  (BitVec.extractLsb'_extractLsb'_of_le (by decide)).symm

theorem fieldL7f_ne {w : MicroWord} {v : BitVec 7} (h : fieldL3f w ≠ v.extractLsb' 0 6) : fieldL7f w ≠ v := by
  rintro rfl
  exact h (BitVec.extractLsb'_extractLsb'_of_le (by decide)).symm

theorem fieldL_ne {w : MicroWord} {v : Byte} (h : fieldL3f w ≠ v.extractLsb' 0 6) : fieldL w ≠ v := by
  rintro rfl
  exact h (fieldL3f_eq w)

/-- A special move's low byte, whatever its ignored bit (R84). -/
theorem fieldL_of_fieldLmove {w : MicroWord} {v : Byte} (h : fieldLmove w = v) :
    fieldL w = v ∨ fieldL w = v ||| 0x10 := by
  subst h
  unfold fieldLmove
  generalize fieldL w = l
  revert l
  decide

/-! ### Formats rebuilt from their fields, and fields read from a format (R84) -/

theorem wordJ_fields (w : MicroWord) : wordJ (fieldTgt w) (w.extractLsb' 0 2) = w :=
  BitVec.extractLsb'_append_extractLsb' (w := 8) (len := 2)

theorem fieldBank_append_fieldL7f (w : MicroWord) : fieldBank w ++ fieldL7f w = w :=
  BitVec.extractLsb'_append_extractLsb' (w := 3) (len := 7)

theorem wordM6_fields (w : MicroWord) : wordM6 (fieldN w) (fieldL3f w) = w :=
  BitVec.extractLsb'_append_extractLsb' (w := 4) (len := 6)

theorem wordS_fields (w : MicroWord) : wordS (fieldH w) (fieldL w) = w :=
  BitVec.extractLsb'_append_extractLsb' (w := 2) (len := 8)

@[simp] theorem SliceCode.bits_ofBits (c : BitVec 3) : (SliceCode.ofBits c).bits = c := by
  revert c; decide

@[simp] theorem SliceCode.ofBits_bits (f : SliceCode) : SliceCode.ofBits f.bits = f := by
  cases f <;> rfl

theorem wordR_fields (w : MicroWord) (h : w.extractLsb' 0 2 = 2) :
    wordR (fieldOp w) (SliceCode.ofBits (fieldCode w)) = w := by
  have htag : w.extractLsb' 0 2 = 2#2 := h
  have hlow : (fieldCode w ++ 2#2 : BitVec 5) = w.extractLsb' 0 5 := by
    rw [← htag]
    exact BitVec.extractLsb'_append_extractLsb'_eq_extractLsb' rfl
  rw [wordR, SliceCode.bits_ofBits, hlow]
  exact BitVec.extractLsb'_append_extractLsb' (w := 5) (len := 5)

theorem fieldOp_wordR (op : BitVec 5) (f : SliceCode) : fieldOp (wordR op f) = op :=
  BitVec.extractLsb'_append_eq_left

theorem fieldCode_wordR (op : BitVec 5) (f : SliceCode) : fieldCode (wordR op f) = f.bits := by
  rw [fieldCode, wordR, BitVec.extractLsb'_append_eq_of_add_le (by decide)]
  exact BitVec.extractLsb'_append_eq_left

theorem extractLsb'_tag_wordR (op : BitVec 5) (f : SliceCode) : (wordR op f).extractLsb' 0 2 = 2 := by
  rw [wordR, BitVec.extractLsb'_append_eq_of_add_le (by decide)]
  exact BitVec.extractLsb'_append_eq_right

@[simp] theorem fieldTgt_wordJ (a : Byte) (tag : BitVec 2) : fieldTgt (wordJ a tag) = a :=
  BitVec.extractLsb'_append_eq_left

theorem extractLsb'_tag_wordJ (a : Byte) (tag : BitVec 2) : (wordJ a tag).extractLsb' 0 2 = tag :=
  BitVec.extractLsb'_append_eq_right

@[simp] theorem fieldBank_append (b : Bank) (l7f : BitVec 7) : fieldBank (b ++ l7f) = b :=
  BitVec.extractLsb'_append_eq_left

theorem fieldL7f_append (b : Bank) (l7f : BitVec 7) : fieldL7f (b ++ l7f) = l7f :=
  BitVec.extractLsb'_append_eq_right

@[simp] theorem fieldN_wordM6 (n : Nibble) (l3f : BitVec 6) : fieldN (wordM6 n l3f) = n :=
  BitVec.extractLsb'_append_eq_left

theorem fieldL3f_wordM6 (n : Nibble) (l3f : BitVec 6) : fieldL3f (wordM6 n l3f) = l3f :=
  BitVec.extractLsb'_append_eq_right

@[simp] theorem fieldL_wordS (h : BitVec 2) (low : Byte) : fieldL (wordS h low) = low :=
  BitVec.extractLsb'_append_eq_right

/-! ### Clearing the ignored bits of a word (R84, R100) -/

theorem clear_none (w : MicroWord) : w &&& ~~~0 = w := BitVec.and_allOnes

/-- Masking out the high field of a word leaves the low one. -/
theorem append_clear_high {m n : Nat} (x : BitVec m) (y : BitVec n) :
    (x ++ y) &&& ~~~(BitVec.allOnes m ++ 0#n) = 0#m ++ y := by simp

theorem clear_bank (w : MicroWord) : w &&& ~~~0x380 = 0#3 ++ fieldL7f w := by
  conv_lhs => rw [← fieldBank_append_fieldL7f w]
  exact append_clear_high ..

theorem clear_h (w : MicroWord) : w &&& ~~~0x300 = wordS 0 (fieldL w) := by
  conv_lhs => rw [← wordS_fields w]
  exact append_clear_high ..

theorem clear_n (w : MicroWord) : w &&& ~~~0x3C0 = wordM6 0 (fieldL3f w) := by
  conv_lhs => rw [← wordM6_fields w]
  exact append_clear_high ..

/-- A special move without its ignored `w[4]`. -/
theorem clear_bit4 (w : MicroWord) : w &&& ~~~0x010 = wordS (fieldH w) (fieldLmove w) := by
  calc w &&& ~~~0x010
      = (fieldH w ++ fieldL w) &&& (BitVec.allOnes 2 ++ 0xEF#8) := congrArg (· &&& ~~~0x010) (wordS_fields w).symm
    _ = wordS (fieldH w) (fieldLmove w) := by rw [BitVec.and_append, BitVec.and_allOnes]; rfl

/-! ### The four families of `Decode` (R81, R85) -/

theorem decodeWord_of_tag_zero {w : MicroWord} (h : w.extractLsb' 0 2 = 0) : decodeWord w = decodeMisc w := by
  simp [decodeWord, h]

theorem decodeWord_of_tag_one {w : MicroWord} (h : w.extractLsb' 0 2 = 1) : decodeWord w = .call (fieldTgt w) := by
  simp [decodeWord, h]

theorem decodeWord_of_tag_two {w : MicroWord} (h : w.extractLsb' 0 2 = 2) :
    decodeWord w = decodeArith (fieldOp w) (SliceCode.ofBits (fieldCode w)) := by
  simp [decodeWord, h]

theorem decodeWord_of_tag_three {w : MicroWord} (h : w.extractLsb' 0 2 = 3) : decodeWord w = .brnc (fieldTgt w) := by
  simp [decodeWord, h]

/-! ### The table of formats -/

/-- The word has the format of the instruction: one row per instruction of R84 and R85, and one for the
arithmetic family, each a condition on the fields of the word alone. -/
inductive HasFormat (w : MicroWord) : Instr → Prop
  | call (h : w.extractLsb' 0 2 = 1) : HasFormat w (.call (fieldTgt w))
  | brnc (h : w.extractLsb' 0 2 = 3) : HasFormat w (.brnc (fieldTgt w))
  | arith (h : w.extractLsb' 0 2 = 2) : HasFormat w (decodeArith (fieldOp w) (SliceCode.ofBits (fieldCode w)))
  | ret (h : fieldL7f w = 0x30) : HasFormat w .ret
  | selrom (h : fieldL7f w = 0x10) : HasFormat w (.selrom (fieldBank w))
  | keyjmp (h : fieldL w = 0xD0) : HasFormat w .keyjmp
  | tsts (h : fieldL3f w = 0x14) : HasFormat w (.tsts (fieldN w))
  | sets (h : fieldL3f w = 0x04) : HasFormat w (.sets (fieldN w))
  | clrs (h : fieldL3f w = 0x24) : HasFormat w (.clrs (fieldN w))
  | clrst (h : fieldL3f w = 0x34) : HasFormat w .clrst
  | tstp (h : fieldL3f w = 0x2C) : HasFormat w (.tstp (fieldN w))
  | setp (h : fieldL3f w = 0x0C) : HasFormat w (.setp (fieldN w))
  | incp (h : fieldL3f w = 0x3C) : HasFormat w .incp
  | decp (h : fieldL3f w = 0x1C) : HasFormat w .decp
  | ldc (h : fieldL3f w = 0x18) : HasFormat w (.ldc (fieldN w))
  | xcm (h : fieldLmove w = 0xA8 ∧ fieldH w = 0) : HasFormat w .xcm
  | push (h : fieldLmove w = 0x28 ∧ fieldH w = 1) : HasFormat w .push
  | pop (h : fieldLmove w = 0xA8 ∧ fieldH w = 1) : HasFormat w .pop
  | mtoc (h : fieldLmove w = 0xA8 ∧ fieldH w = 2) : HasFormat w .mtoc
  | rot (h : fieldLmove w = 0x28 ∧ fieldH w = 3) : HasFormat w .rot
  | clreg (h : fieldLmove w = 0xA8 ∧ fieldH w = 3) : HasFormat w .clreg
  | dispoff (h : fieldLmove w = 0x28 ∧ fieldH w = 0) : HasFormat w .dispoff
  | disptog (h : fieldLmove w = 0x28 ∧ fieldH w = 2) : HasFormat w .disptog
  | undefined (h : fieldL w ∈ undefinedLowBytes) : HasFormat w (.undefined (fieldL w))

/-! ### Every word has the format of what it decodes to -/

/-- The 19 low bytes of R98 are those of the miscellaneous family that no other row of R84 names. -/
theorem mem_undefinedLowBytes_iff : ∀ l : Byte, l ∈ undefinedLowBytes ↔ l.extractLsb' 0 2 = 0 ∧
    (l.extractLsb' 0 7 ≠ 0x30 ∧ l.extractLsb' 0 7 ≠ 0x10 ∧ l ≠ 0xD0) ∧
    (l.extractLsb' 0 6 ≠ 0x14 ∧ l.extractLsb' 0 6 ≠ 0x04 ∧ l.extractLsb' 0 6 ≠ 0x24 ∧ l.extractLsb' 0 6 ≠ 0x34 ∧
      l.extractLsb' 0 6 ≠ 0x2C ∧ l.extractLsb' 0 6 ≠ 0x0C ∧ l.extractLsb' 0 6 ≠ 0x3C ∧ l.extractLsb' 0 6 ≠ 0x1C ∧
      l.extractLsb' 0 6 ≠ 0x18) ∧
    l &&& 0xEF ≠ 0xA8 ∧ l &&& 0xEF ≠ 0x28 := by decide

/-- The words of R98, by the fields of R82. -/
theorem fieldL_mem_undefinedLowBytes_iff (w : MicroWord) : fieldL w ∈ undefinedLowBytes ↔ w.extractLsb' 0 2 = 0 ∧
    (fieldL7f w ≠ 0x30 ∧ fieldL7f w ≠ 0x10 ∧ fieldL w ≠ 0xD0) ∧
    (fieldL3f w ≠ 0x14 ∧ fieldL3f w ≠ 0x04 ∧ fieldL3f w ≠ 0x24 ∧ fieldL3f w ≠ 0x34 ∧ fieldL3f w ≠ 0x2C ∧
      fieldL3f w ≠ 0x0C ∧ fieldL3f w ≠ 0x3C ∧ fieldL3f w ≠ 0x1C ∧ fieldL3f w ≠ 0x18) ∧
    fieldLmove w ≠ 0xA8 ∧ fieldLmove w ≠ 0x28 := by
  rw [extractLsb'_tag_eq, fieldL7f_eq, fieldL3f_eq]
  exact mem_undefinedLowBytes_iff (fieldL w)

theorem twoBits_cases (t : BitVec 2) : t = 0 ∨ t = 1 ∨ t = 2 ∨ t = 3 := by
  revert t
  decide

theorem hasFormat_decodeMisc {w : MicroWord} (htag : w.extractLsb' 0 2 = 0) : HasFormat w (decodeMisc w) := by
  unfold decodeMisc
  refine iteInduction .ret fun hret => iteInduction .selrom fun hselrom => iteInduction .keyjmp fun hkeyjmp => ?_
  refine iteInduction .tsts fun htsts => iteInduction .sets fun hsets => iteInduction .clrs fun hclrs => ?_
  refine iteInduction .clrst fun hclrst => iteInduction .tstp fun htstp => iteInduction .setp fun hsetp => ?_
  refine iteInduction .incp fun hincp => iteInduction .decp fun hdecp => iteInduction .ldc fun hldc => ?_
  refine iteInduction .xcm fun hxcm => iteInduction .push fun hpush => iteInduction .pop fun hpop => ?_
  refine iteInduction .mtoc fun hmtoc => iteInduction .rot fun hrot => iteInduction .clreg fun hclreg => ?_
  refine iteInduction .dispoff fun hdispoff => iteInduction .disptog fun hdisptog => .undefined ?_
  have hA8 : fieldLmove w ≠ 0xA8 := fun hg => by
    rcases twoBits_cases (fieldH w) with h | h | h | h
    exacts [hxcm ⟨hg, h⟩, hpop ⟨hg, h⟩, hmtoc ⟨hg, h⟩, hclreg ⟨hg, h⟩]
  have h28 : fieldLmove w ≠ 0x28 := fun hg => by
    rcases twoBits_cases (fieldH w) with h | h | h | h
    exacts [hdispoff ⟨hg, h⟩, hpush ⟨hg, h⟩, hdisptog ⟨hg, h⟩, hrot ⟨hg, h⟩]
  exact (fieldL_mem_undefinedLowBytes_iff w).2 ⟨htag, ⟨hret, hselrom, hkeyjmp⟩,
    ⟨htsts, hsets, hclrs, hclrst, htstp, hsetp, hincp, hdecp, hldc⟩, hA8, h28⟩

theorem hasFormat_decodeWord (w : MicroWord) : HasFormat w (decodeWord w) := by
  rcases twoBits_cases (w.extractLsb' 0 2) with h | h | h | h
  · exact decodeWord_of_tag_zero h ▸ hasFormat_decodeMisc h
  · exact decodeWord_of_tag_one h ▸ .call h
  · exact decodeWord_of_tag_two h ▸ .arith h
  · exact decodeWord_of_tag_three h ▸ .brnc h

/-! ### A word decodes to the one instruction whose format it has -/

/-- R86: a row's condition rules out every condition before it in R85's chain. -/
theorem HasFormat.decodeWord_eq {w : MicroWord} {i : Instr} (hw : HasFormat w i) : decodeWord w = i := by
  cases hw with
  | call h => exact decodeWord_of_tag_one h
  | brnc h => exact decodeWord_of_tag_three h
  | arith h => exact decodeWord_of_tag_two h
  | ret h | selrom h => simp [decodeWord_of_tag_zero, extractLsb'_tag_eq_l7f, decodeMisc, h]
  | tsts h | sets h | clrs h | clrst h | tstp h | setp h | incp h | decp h | ldc h =>
    simp [decodeWord_of_tag_zero, extractLsb'_tag_eq_l3f, decodeMisc, h, fieldL7f_ne, fieldL_ne]
  | keyjmp h => simp [decodeWord_of_tag_zero, extractLsb'_tag_eq, decodeMisc, fieldL7f_eq, h]
  | xcm h | push h | pop h | mtoc h | rot h | clreg h | dispoff h | disptog h =>
    obtain ⟨hmove, hh⟩ := h
    rcases fieldL_of_fieldLmove hmove with h | h <;>
      simp [decodeWord_of_tag_zero, extractLsb'_tag_eq, decodeMisc, fieldL7f_eq, fieldL3f_eq, h, hmove, hh]
  | undefined h =>
    obtain ⟨htag, ⟨hret, hselrom, hkeyjmp⟩,
        ⟨htsts, hsets, hclrs, hclrst, htstp, hsetp, hincp, hdecp, hldc⟩, hA8, h28⟩ :=
      (fieldL_mem_undefinedLowBytes_iff w).1 h
    rw [decodeWord_of_tag_zero htag]
    simp only [decodeMisc, hret, hselrom, hkeyjmp, htsts, hsets, hclrs, hclrst, htstp, hsetp, hincp, hdecp, hldc, hA8,
      h28, false_and, if_false]

/-- The decoder is the table of formats: its rows cover every word and no two of them share one (R85, R86). -/
theorem decodeWord_eq_iff {w : MicroWord} {i : Instr} : decodeWord w = i ↔ HasFormat w i :=
  ⟨fun h => h ▸ hasFormat_decodeWord w, HasFormat.decodeWord_eq⟩

/-! ### The encoder gives each instruction a word of its format (R105) -/

theorem encodeWord_decodeArith (op : BitVec 5) (f : SliceCode) : encodeWord (decodeArith op f) = wordR op f := by
  obtain ⟨⟨n, hn⟩⟩ := op
  interval_cases n <;> rfl

theorem ignoredBits_decodeArith (op : BitVec 5) (f : SliceCode) : ignoredBits (decodeArith op f) = 0 := by
  unfold decodeArith
  split <;> rfl

theorem wellFormed_decodeArith (op : BitVec 5) (f : SliceCode) : (decodeArith op f).wellFormed = true := by
  unfold decodeArith
  split <;> rfl

theorem familyOf_decodeArith (op : BitVec 5) (f : SliceCode) : familyOf (decodeArith op f) = .arithmetic := by
  unfold decodeArith
  split <;> rfl

theorem decodeWord_wordR (op : BitVec 5) (f : SliceCode) : decodeWord (wordR op f) = decodeArith op f := by
  rw [decodeWord_of_tag_two (extractLsb'_tag_wordR op f), fieldOp_wordR, fieldCode_wordR, SliceCode.ofBits_bits]

theorem hasFormat_wordR (op : BitVec 5) (f : SliceCode) : HasFormat (wordR op f) (decodeArith op f) :=
  decodeWord_wordR op f ▸ hasFormat_decodeWord _

/-- The canonical word of a well-formed instruction has its format (R105). -/
theorem hasFormat_encodeWord {i : Instr} (hi : i.wellFormed = true) : HasFormat (encodeWord i) i := by
  cases i with
  | call a => simpa [encodeWord] using HasFormat.call (extractLsb'_tag_wordJ a 1)
  | brnc a => simpa [encodeWord] using HasFormat.brnc (extractLsb'_tag_wordJ a 3)
  | tstB f | clrB f | subACtoT f | tstDecC f | movBC f | negC f | clrC f | nineC f | shlA f | movAB f | subACtoC f
  | decC f | movCA f | tstC f | addACtoC f | incC f | subABtoT f | xchBC f | shrC f | tstDecA f | shrB f | dblC f
  | shrA f | clrA f | subABtoA f | xchAB f | subACtoA f | decA f | addABtoA f | xchAC f | addACtoA f | incA f =>
    exact hasFormat_wordR _ f
  | ret => exact .ret rfl
  | selrom b => simpa [encodeWord] using HasFormat.selrom (fieldL7f_append b 0x10)
  | keyjmp => exact .keyjmp rfl
  | tsts n => simpa [encodeWord] using HasFormat.tsts (fieldL3f_wordM6 n 0x14)
  | sets n => simpa [encodeWord] using HasFormat.sets (fieldL3f_wordM6 n 0x04)
  | clrs n => simpa [encodeWord] using HasFormat.clrs (fieldL3f_wordM6 n 0x24)
  | clrst => exact .clrst rfl
  | tstp n => simpa [encodeWord] using HasFormat.tstp (fieldL3f_wordM6 n 0x2C)
  | setp n => simpa [encodeWord] using HasFormat.setp (fieldL3f_wordM6 n 0x0C)
  | incp => exact .incp rfl
  | decp => exact .decp rfl
  | ldc k => simpa [encodeWord] using HasFormat.ldc (fieldL3f_wordM6 k 0x18)
  | xcm => exact .xcm ⟨rfl, rfl⟩
  | push => exact .push ⟨rfl, rfl⟩
  | pop => exact .pop ⟨rfl, rfl⟩
  | mtoc => exact .mtoc ⟨rfl, rfl⟩
  | rot => exact .rot ⟨rfl, rfl⟩
  | clreg => exact .clreg ⟨rfl, rfl⟩
  | dispoff => exact .dispoff ⟨rfl, rfl⟩
  | disptog => exact .disptog ⟨rfl, rfl⟩
  | undefined l =>
    have hl : l ∈ undefinedLowBytes := List.contains_iff_mem.1 hi
    simpa [encodeWord] using HasFormat.undefined (w := wordS 0 l) (by simpa using hl)

/-- The encoder undoes the decoder but for the ignored bits (R84, R100). -/
theorem HasFormat.encodeWord_eq {w : MicroWord} {i : Instr} (hw : HasFormat w i) :
    encodeWord i = w &&& ~~~ignoredBits i := by
  cases hw with
  | call h | brnc h => exact Eq.trans (by simpa [encodeWord, h] using wordJ_fields w) (clear_none w).symm
  | arith h => rw [encodeWord_decodeArith, ignoredBits_decodeArith, wordR_fields w h, clear_none]
  | ret h => exact ((clear_bank w).trans (by rw [h]; rfl)).symm
  | selrom h => exact Eq.trans (by simpa [encodeWord, h] using fieldBank_append_fieldL7f w) (clear_none w).symm
  | keyjmp h => exact ((clear_h w).trans (by rw [h]; rfl)).symm
  | tsts h | sets h | clrs h | tstp h | setp h | ldc h =>
    exact Eq.trans (by simpa [encodeWord, h] using wordM6_fields w) (clear_none w).symm
  | clrst h | incp h | decp h => exact ((clear_n w).trans (by rw [h]; rfl)).symm
  | xcm h | push h | pop h | mtoc h | rot h | clreg h | dispoff h | disptog h =>
    obtain ⟨hl, hh⟩ := h
    exact ((clear_bit4 w).trans (by rw [hl, hh]; rfl)).symm
  | undefined _ => exact (clear_h w).symm

theorem HasFormat.wellFormed {w : MicroWord} {i : Instr} (hw : HasFormat w i) : i.wellFormed = true := by
  cases hw with
  | arith _ => exact wellFormed_decodeArith ..
  | undefined h => exact List.contains_iff_mem.2 h
  | _ => rfl

/-! ### The bytes of a word (R62) -/

theorem highByte_zeros (w : MicroWord) : (highByte w).extractLsb' 2 6 = 0 := by
  change ((fieldH w).setWidth 8).extractLsb' 2 6 = 0
  generalize fieldH w = h
  revert h
  decide

theorem pairWord_bytes (w : MicroWord) : pairWord (highByte w) (fieldL w) = w := by
  rw [pairWord, highByte, BitVec.extractLsb'_setWidth_of_le (by decide), BitVec.extractLsb'_eq_self]
  exact wordS_fields w

theorem decode_pair {h : Byte} (hzero : h.extractLsb' 2 6 = 0) (l : Byte) (rest : List Byte) :
    decode (h :: l :: rest) = .instr (decodeWord (pairWord h l)) rest := if_pos hzero

theorem decode_wordBytes (w : MicroWord) (rest : List Byte) :
    decode (wordBytes w ++ rest) = .instr (decodeWord w) rest := by
  have hpair := decode_pair (highByte_zeros w) (fieldL w) rest
  rwa [pairWord_bytes] at hpair

theorem decode_pair_inv {h l : Byte} {rest rest' : List Byte} {i : Instr}
    (hdec : decode (h :: l :: rest) = .instr i rest') : i = decodeWord (pairWord h l) ∧ rest' = rest := by
  by_cases hzero : h.extractLsb' 2 6 = 0
  · rw [decode_pair hzero] at hdec
    injection hdec with hi hrest
    exact ⟨hi.symm, hrest.symm⟩
  · cases (if_neg hzero).symm.trans hdec

/-! ### The obligations -/

/-- Settles O1: the canonical word has the instruction's format, and the decoder reads formats. -/
theorem decodeOfEncode : Obligations.DecodeOfEncode := by
  intro i rest hi
  rw [encode, decode_wordBytes, (hasFormat_encodeWord hi).decodeWord_eq]

/-- Settles O2: a decoded word has the instruction's format, and each format keeps all but its ignored bits. -/
theorem encodeOfDecode : Obligations.EncodeOfDecode := by
  intro h l rest rest' i hdec
  obtain ⟨rfl, hrest⟩ := decode_pair_inv hdec
  have hformat := hasFormat_decodeWord (pairWord h l)
  exact ⟨hrest, hformat.wellFormed, hformat.encodeWord_eq⟩

theorem HasFormat.familyOf_misc {w : MicroWord} {i : Instr} (hw : HasFormat w i) (htag : w.extractLsb' 0 2 = 0) :
    familyOf i = .misc := by
  cases hw with
  | call h | brnc h | arith h => simp [htag] at h
  | _ => rfl

/-- Settles O3. -/
theorem familyOfWord : Obligations.FamilyOfWord := by
  refine fun w => ⟨fun h => ?_, fun h => ?_, fun h => ?_, fun h => ?_⟩
  · rw [decodeWord_of_tag_one h]; rfl
  · rw [decodeWord_of_tag_two h]; exact familyOf_decodeArith ..
  · rw [decodeWord_of_tag_three h]; rfl
  · exact (hasFormat_decodeWord w).familyOf_misc h

theorem toNat_append_eq_add {m n : Nat} (x : BitVec m) (y : BitVec n) : (x ++ y).toNat = x.toNat * 2 ^ n + y.toNat := by
  rw [BitVec.toNat_append, ← Nat.shiftLeft_add_eq_or_of_lt y.isLt, Nat.shiftLeft_eq]

/-- R200's formula for an arithmetic word is its format. -/
theorem ofNat_eq_wordR (n : Nat) (f : SliceCode) :
    BitVec.ofNat 10 (n * 32 + f.bits.toNat * 4 + 2) = wordR (BitVec.ofNat 5 n) f := by
  have hcode : f.bits.toNat < 8 := f.bits.isLt
  apply BitVec.eq_of_toNat_eq
  rw [wordR, toNat_append_eq_add, toNat_append_eq_add, BitVec.toNat_ofNat, BitVec.toNat_ofNat,
    show (2#2).toNat = 2 from rfl]
  omega

/-- Settles O4: the table's row `n` is what `decodeArith` reads from the opcode `n`. -/
theorem arithmeticWordsDecode : Obligations.ArithmeticWordsDecode := by
  intro f x hx
  obtain ⟨n, _, rfl⟩ : ∃ n ∈ List.range 32, (n, decodeArith (BitVec.ofNat 5 n) f) = x := List.mem_map.1 hx
  rw [ofNat_eq_wordR, decodeWord_wordR]

theorem hasFormat_undefined_iff (w : MicroWord) (l : Byte) :
    HasFormat w (.undefined l) ↔ fieldL w = l ∧ l ∈ undefinedLowBytes := by
  constructor
  · intro hw
    generalize hi : Instr.undefined l = i at hw
    cases hw with
    | undefined h => cases hi; exact ⟨rfl, h⟩
    | arith _ => exact absurd (congrArg familyOf hi) (by rw [familyOf_decodeArith]; nofun)
    | _ => cases hi
  · rintro ⟨rfl, h⟩
    exact .undefined h

/-- Settles O5: the tag of R98's words follows from their low bytes. -/
theorem undefinedWordsExactly : Obligations.UndefinedWordsExactly := by
  intro w l
  rw [decodeWord_eq_iff, hasFormat_undefined_iff]
  constructor
  · rintro ⟨rfl, hl⟩
    exact ⟨((fieldL_mem_undefinedLowBytes_iff w).1 hl).1, rfl, hl⟩
  · rintro ⟨_, hw, hl⟩
    exact ⟨hw, hl⟩

/-- Settles O6: twelve closed words, evaluated. -/
theorem sampleWordsDecode : Obligations.SampleWordsDecode := by
  unfold Obligations.SampleWordsDecode
  decide

end Sys2Proof

/-! A step of a running state and of a faulted one (30_encoding.md R90), and the UNDEFINED words (R99). -/

namespace Sys2Proof.Machine

/-- Settles O10. -/
theorem faultedStateIsStuck : Obligations.FaultedStateIsStuck := by
  intro s r hr
  simp only [step, hr]

/-- Settles O8: the start of the cycle keeps OFFSET, PC, DE and the image, so the fetch and the end see those of `s`. -/
theorem stepRunsDecodedInstruction : Obligations.StepRunsDecodedInstruction := by
  intro s t h l i hrun hpair hdec hexec
  simp [step, hrun, hpair, hdec, hexec]

/-- Settles O46. -/
theorem undefinedWordResult : Obligations.UndefinedWordResult := fun _ _ =>
  ⟨fun h => if_neg (by simp [h]), fun h => if_pos h⟩

end Sys2Proof.Machine

/-! The two BCD primitives and the zero test (40_bcd_alu_slices.md R120 to R122, R133, R134), and the slice selector
(R124). -/

namespace Sys2Proof.Machine

/-! ### The digit and the carry of a primitive -/

theorem bcdAdd_digit_toNat (x y : Nibble) (k : Bool) : (bcdAdd x y k).1.toNat =
    (if 10 ≤ x.toNat + y.toNat + k.toNat then x.toNat + y.toNat + k.toNat - 10
      else x.toNat + y.toNat + k.toNat) % 16 := by
  simp [bcdAdd, addCarry]

theorem bcdAdd_carry_iff (x y : Nibble) (k : Bool) :
    (bcdAdd x y k).2 = true ↔ 10 ≤ x.toNat + y.toNat + k.toNat := by
  simp [bcdAdd, addCarry]

theorem bcdSub_borrow_iff (x y : Nibble) (k : Bool) :
    (bcdSub x y k).2 = true ↔ x.toNat < y.toNat + k.toNat := by
  simp [bcdSub, subBorrow]

theorem bcdSub_digit_toNat (x y : Nibble) (k : Bool) : ((bcdSub x y k).1.toNat : Int) =
    (if x.toNat < y.toNat + k.toNat then (x.toNat : Int) - y.toNat - k.toNat + 10
      else (x.toNat : Int) - y.toNat - k.toNat) % 16 := by
  simp only [bcdSub, subBorrow, decide_eq_true_eq, BitVec.toNat_ofInt]
  exact Int.toNat_of_nonneg (Int.emod_nonneg _ (by decide))

/-- Settles O47. -/
theorem digitPrimitives : Obligations.DigitPrimitives := by
  intro x y k
  have hneg : (x.toNat : Int) - y.toNat - k.toNat < 0 ↔ x.toNat < y.toNat + k.toNat := by omega
  simp only [hneg]
  exact ⟨bcdAdd_digit_toNat x y k, bcdAdd_carry_iff x y k, bcdSub_digit_toNat x y k, bcdSub_borrow_iff x y k⟩

/-! ### The slice selector -/

theorem pointerDigit_of_le {p : Nibble} (h : p.toNat ≤ 13) : pointerDigit p = some p.toNat := if_pos (by omega)

/-- Every row of the opcode table takes the slice code of its word (R124, R200). -/
theorem arithmeticForm_decodeArith (op : BitVec 5) (f : SliceCode) :
    ∃ gk, arithmeticForm (decodeArith op f) = some (gk, f) := by
  unfold decodeArith
  split <;> exact ⟨_, rfl⟩

/-- Settles O48. -/
theorem sliceSelectorTable : Obligations.SliceSelectorTable := by
  refine ⟨fun w h => ?_, fun p => ⟨fun hp => ?_, rfl, rfl, rfl, fun hp => ?_, rfl, rfl, rfl⟩⟩
  · rw [decodeWord_of_tag_two h]
    exact arithmeticForm_decodeArith _ _
  · exact congrArg (Option.map _) (pointerDigit_of_le hp)
  · exact congrArg (Option.map _) (pointerDigit_of_le hp)

/-! ### The zero test -/

theorem anyNonzeroFrom_iff (x : Reg) (i n : Nat) :
    anyNonzeroFrom x i n = true ↔ ∃ j, i ≤ j ∧ j < i + n ∧ x.digit j ≠ 0 := by
  induction n generalizing i with
  | zero =>
    refine iff_of_false Bool.false_ne_true fun ⟨j, h1, h2, _⟩ => ?_
    omega
  | succ n ih =>
    rw [anyNonzeroFrom, Bool.or_eq_true, decide_eq_true_eq, ih]
    constructor
    · rintro (h | ⟨j, h1, h2, h⟩)
      · exact ⟨i, by omega, by omega, h⟩
      · exact ⟨j, by omega, by omega, h⟩
    · rintro ⟨j, h1, h2, h⟩
      rcases Nat.eq_or_lt_of_le h1 with rfl | hlt
      · exact .inl h
      · exact .inr ⟨j, hlt, by omega, h⟩

/-- The `count` indices from `first` are those of the range. -/
theorem DigitRange.holds_iff (r : DigitRange) (i : Nat) : r.holds i ↔ r.first ≤ i ∧ i < r.first + r.count := by
  simp only [DigitRange.count]
  omega

theorem anyNonzero_iff (r : DigitRange) (x : Reg) : anyNonzero r x = true ↔ ∃ i, r.holds i ∧ x.digit i ≠ 0 := by
  simp only [anyNonzero, anyNonzeroFrom_iff, DigitRange.holds_iff, and_assoc]

/-- Settles O49. -/
theorem anyNonzeroMeansSomeDigit : Obligations.AnyNonzeroMeansSomeDigit := fun r x =>
  (anyNonzero_iff r x).trans (exists_congr fun _ => and_assoc)

/-- Taking 1 from a slice borrows through exactly its digits that are 0 (R134). -/
theorem carryLoop_sub_zero_borrow (x d : Reg) (i n : Nat) (k : Bool) :
    (carryLoop bcdSub x Reg.zero i n k d).2 = (k && !anyNonzeroFrom x i n) := by
  induction n generalizing i k d with
  | zero => simp [carryLoop, anyNonzeroFrom]
  | succ n ih =>
    have hborrow : (bcdSub (x.digit i) (Reg.digit Reg.zero i) k).2 = (k && decide (x.digit i = 0)) := by
      rw [Bool.eq_iff_iff, bcdSub_borrow_iff, Reg.digit_zero]
      cases k <;> simp [BitVec.toNat_eq]
    rw [carryLoop, ih, hborrow, anyNonzeroFrom]
    simp [Bool.and_assoc]

/-- The decrement test: CARRY is 1 exactly when every digit of the slice is 0 (R134). -/
theorem subSlice_one_borrow_iff (r : DigitRange) (x d : Reg) :
    (subSlice r x Reg.zero d true).2 = true ↔ ∀ i, r.holds i → x.digit i = 0 := by
  rw [subSlice, carryLoop_sub_zero_borrow, Bool.true_and, Bool.not_eq_true', ← anyNonzero, ← Bool.not_eq_true,
    anyNonzero_iff]
  simp

end Sys2Proof.Machine

/-! The 32 arithmetic opcodes run on a slice (44_arithmetic.md R200 to R233): one lemma per kind of body, each for any
instruction that is the skeleton of R200 around such a body, with its destination `put` back into the state. -/

namespace Sys2Proof.Machine

section
variable {i : Instr} {gk : Bool} {f : SliceCode} {s : State} {r : DigitRange}

/-- The body runs, an opcode from general knowledge needing the policy that lets it run (R201). -/
theorem arith_runs (hr : sliceRange f s.p = some r) (hgk : gk = true → s.cfg.gkOps = .admits)
    (body : DigitRange → State) : arith gk f s body = .next (body r) := by
  cases gk with
  | false => exact arith_of_slice hr body
  | true => exact arith_of_admits hr (hgk rfl) body

/-- An opcode that is a digit loop (R127, R128). -/
theorem exec_of_carryLoop {op : Nibble → Nibble → Bool → Nibble × Bool} {x y d : Reg} {seed : Bool}
    {put : Reg → Bool → State} (hr : sliceRange f s.p = some r)
    (he : exec i s = arith gk f s fun r =>
      let z := carryLoop op x y r.first r.count seed d
      put z.1 z.2)
    (hgk : gk = true → s.cfg.gkOps = .admits) :
    ∃ z k, exec i s = .next (put z k) ∧ loopResult op r x y d seed z k := by
  obtain ⟨hle, hlast⟩ := sliceRange_bounds hr
  exact ⟨_, _, he.trans (arith_runs hr hgk _), carryLoop_result op r x y d seed hle hlast⟩

/-- An opcode that writes a digit `g j` to each place `j` of its slice (R131). -/
theorem exec_of_writeDigits {g : Nat → Nibble} {d : Reg} {put : Reg → State} (hr : sliceRange f s.p = some r)
    (he : exec i s = arith gk f s fun r => put (writeDigits g r.first r.count d))
    (hgk : gk = true → s.cfg.gkOps = .admits) :
    ∃ z, exec i s = .next (put z) ∧ keepsOutside r d z ∧ ∀ j, r.holds j → z.digit j = g j := by
  obtain ⟨hle, hlast⟩ := sliceRange_bounds hr
  have hdigit (j : Nat) := writeDigits_range g r d j hle hlast
  exact ⟨_, he.trans (arith_runs hr hgk _), fun j hj => (hdigit j).trans (if_neg hj),
    fun j hj => (hdigit j).trans (if_pos hj)⟩

/-- An opcode that is a left shift (R132). -/
theorem exec_of_shiftLeft {x : Reg} {put : Reg → State} (hr : sliceRange f s.p = some r)
    (he : exec i s = arith false f s fun r => put (shiftLeft r x)) :
    ∃ z, exec i s = .next (put z) ∧ keepsOutside r x z ∧ z.digit r.first = 0 ∧
      ∀ j, r.first ≤ j → j < r.last → z.digit (j + 1) = x.digit j := by
  obtain ⟨hle, hlast⟩ := sliceRange_bounds hr
  have hdigit (j : Nat) := shiftLeft_digit r x j hle hlast
  refine ⟨_, he.trans (arith_of_slice hr _), fun j hj => ?_, ?_, fun j h1 h2 => ?_⟩
  · rw [hdigit, if_neg hj]
  · rw [hdigit, if_pos ⟨le_rfl, hle⟩, if_pos rfl]
  · rw [hdigit, if_pos ⟨by omega, h2⟩, if_neg (by omega), Nat.add_sub_cancel]

/-- An opcode that is a right shift (R132). -/
theorem exec_of_shiftRight {x : Reg} {put : Reg → State} (hr : sliceRange f s.p = some r)
    (he : exec i s = arith false f s fun r => put (shiftRight r x)) :
    ∃ z, exec i s = .next (put z) ∧ keepsOutside r x z ∧ z.digit r.last = 0 ∧
      ∀ j, r.first ≤ j → j < r.last → z.digit j = x.digit (j + 1) := by
  obtain ⟨hle, hlast⟩ := sliceRange_bounds hr
  have hdigit (j : Nat) := shiftRight_digit r x j hle hlast
  refine ⟨_, he.trans (arith_of_slice hr _), fun j hj => ?_, ?_, fun j h1 h2 => ?_⟩
  · rw [hdigit, if_neg hj]
  · rw [hdigit, if_pos ⟨hle, le_rfl⟩, if_pos rfl]
  · rw [hdigit, if_pos ⟨h1, h2.le⟩, if_neg h2.ne]

end

/-! ### Exchanges -/

/-- Copying the slice back from the register it went to restores it (R131). -/
theorem copySlice_copySlice {r : DigitRange} (x y : Reg) (hle : r.first ≤ r.last) (hlast : r.last ≤ 13) :
    copySlice r (copySlice r x y) (copySlice r y x) = x := by
  refine Reg.ext_digit _ _ fun j _ => ?_
  simp only [copySlice_digit _ _ _ _ hle hlast]
  split <;> rfl

/-- An opcode that exchanges the slices of the two registers that `put` places in the state (R131). -/
theorem exec_of_exchange {i : Instr} {f : SliceCode} {r : DigitRange} {put : Reg → Reg → State}
    (hr : ∀ x y, sliceRange f (put x y).p = some r)
    (he : ∀ x y, exec i (put x y) = arith false f (put x y) fun r => put (copySlice r y x) (copySlice r x y))
    (x y : Reg) :
    ∃ x' y', exec i (put x y) = .next (put x' y') ∧ keepsOutside r x x' ∧ keepsOutside r y y' ∧
      (∀ j, r.holds j → x'.digit j = y.digit j ∧ y'.digit j = x.digit j) ∧
      exec i (put x' y') = .next (put x y) := by
  obtain ⟨hle, hlast⟩ := sliceRange_bounds (hr x y)
  have hrun (x y : Reg) : exec i (put x y) = .next (put (copySlice r y x) (copySlice r x y)) :=
    (he x y).trans (arith_of_slice (hr x y) _)
  have hdigit (x d : Reg) (j : Nat) := copySlice_digit r x d j hle hlast
  refine ⟨_, _, hrun x y, fun j hj => (hdigit y x j).trans (if_neg hj), fun j hj => (hdigit x y j).trans (if_neg hj),
    fun j hj => ⟨(hdigit y x j).trans (if_pos hj), (hdigit x y j).trans (if_pos hj)⟩, ?_⟩
  rw [hrun, copySlice_copySlice x y hle hlast, copySlice_copySlice y x hle hlast]

/-! ### The obligations -/

/-- Settles O50. -/
theorem addResults : Obligations.AddResults := fun _ _ _ hr =>
  ⟨exec_of_carryLoop hr rfl nofun, exec_of_carryLoop hr rfl nofun, exec_of_carryLoop hr rfl nofun,
    exec_of_carryLoop hr rfl nofun, exec_of_carryLoop hr rfl nofun, exec_of_carryLoop hr rfl nofun⟩

/-- Settles O51. -/
theorem subtractResults : Obligations.SubtractResults := fun _ _ _ hr =>
  ⟨exec_of_carryLoop hr rfl nofun, exec_of_carryLoop hr rfl nofun, exec_of_carryLoop hr rfl nofun,
    exec_of_carryLoop hr rfl nofun, exec_of_carryLoop hr rfl nofun, exec_of_carryLoop hr rfl nofun,
    exec_of_carryLoop hr rfl nofun, fun hg => exec_of_carryLoop hr rfl fun _ => hg,
    fun hg => exec_of_carryLoop hr rfl fun _ => hg⟩

/-- Settles O52: the zero test, and the borrow of the slice less 1. -/
theorem testResults : Obligations.TestResults := fun _ s r hr =>
  ⟨fun hg => ⟨_, arith_of_admits hr hg _, anyNonzero_iff r s.b⟩,
    fun hg => ⟨_, arith_of_admits hr hg _, anyNonzero_iff r s.c⟩,
    fun hg => ⟨_, arith_of_admits hr hg _, subSlice_one_borrow_iff r s.c s.c⟩,
    ⟨_, arith_of_slice hr _, subSlice_one_borrow_iff r s.a s.a⟩⟩

/-- Settles O53. -/
theorem copyAndClearResults : Obligations.CopyAndClearResults := fun _ _ _ hr =>
  ⟨exec_of_writeDigits hr rfl nofun, exec_of_writeDigits hr rfl nofun, exec_of_writeDigits hr rfl nofun,
    exec_of_writeDigits hr rfl nofun, exec_of_writeDigits hr rfl nofun,
    fun hg => exec_of_writeDigits hr rfl fun _ => hg⟩

/-- Settles O54. -/
theorem exchangeResults : Obligations.ExchangeResults := fun _ s _ hr =>
  ⟨exec_of_exchange (put := fun y z => { s with b := y, c := z }) (fun _ _ => hr) (fun _ _ => rfl) s.b s.c,
    exec_of_exchange (put := fun y z => { s with a := y, b := z }) (fun _ _ => hr) (fun _ _ => rfl) s.a s.b,
    exec_of_exchange (put := fun y z => { s with a := y, c := z }) (fun _ _ => hr) (fun _ _ => rfl) s.a s.c⟩

/-- Settles O55. -/
theorem shiftResults : Obligations.ShiftResults := fun _ _ _ hr =>
  ⟨exec_of_shiftLeft hr rfl, exec_of_shiftRight hr rfl, exec_of_shiftRight hr rfl, exec_of_shiftRight hr rfl⟩

end Sys2Proof.Machine

/-! BCD digits and the decimal value of a slice (40_bcd_alu_slices.md R120 to R123, R129, R130): on digits 0..9 the two
primitives are one step of column arithmetic, and a slice sums its columns. -/

namespace Sys2Proof.Machine

/-! ### The primitives on BCD digits -/

/-- One column of decimal arithmetic on BCD digits: the digit of `x`, plus or minus (`σ`) the digit of `y` and the carry
in, with ten given back by the carry out, is a BCD digit again (R120 to R122). -/
def DecimalColumn (σ : Int) (op : Nibble → Nibble → Bool → Nibble × Bool) : Prop :=
  ∀ x y k, x.toNat ≤ 9 → y.toNat ≤ 9 →
    ((op x y k).1.toNat : Int) = x.toNat + σ * (y.toNat + k.toNat - 10 * (op x y k).2.toNat) ∧ (op x y k).1.toNat ≤ 9

theorem decimalColumn_bcdAdd : DecimalColumn 1 bcdAdd := by
  intro x y k hx hy
  have hk := k.toNat_le
  have hdigit := bcdAdd_digit_toNat x y k
  have hcarry := bcdAdd_carry_iff x y k
  split at hdigit
  next h => rw [hcarry.2 h, Bool.toNat_true]; omega
  next h => rw [Bool.eq_false_iff.2 (mt hcarry.1 h), Bool.toNat_false]; omega

theorem decimalColumn_bcdSub : DecimalColumn (-1) bcdSub := by
  intro x y k hx hy
  have hk := k.toNat_le
  have hdigit := bcdSub_digit_toNat x y k
  have hborrow := bcdSub_borrow_iff x y k
  split at hdigit
  next h => rw [hborrow.2 h, Bool.toNat_true]; omega
  next h => rw [Bool.eq_false_iff.2 (mt hborrow.1 h), Bool.toNat_false]; omega

/-! ### The digits of a loop -/

section
variable {σ : Int} {op : Nibble → Nibble → Bool → Nibble × Bool} {r : DigitRange} {x y d z : Reg} {seed k : Bool}

/-- A digit loop on BCD digits leaves BCD digits in the slice. -/
theorem bcdOn_of_loopResult (hop : DecimalColumn σ op) (hx : bcdOn r x) (hy : bcdOn r y)
    (h : loopResult op r x y d seed z k) : bcdOn r z := by
  obtain ⟨⟨c, _, _, hc⟩, _⟩ := h
  intro i hi
  obtain ⟨_, hdigit⟩ := hop _ _ (c i) (hx i hi) (hy i hi)
  rwa [hc i hi] at hdigit

/-- A digit loop on BCD registers leaves a BCD register. -/
theorem bcdReg_of_loopResult (hop : DecimalColumn σ op) (hx : bcdReg x) (hy : bcdReg y) (hd : bcdReg d)
    (h : loopResult op r x y d seed z k) : bcdReg z := by
  intro i
  by_cases hi : r.holds i
  · exact bcdOn_of_loopResult hop (fun j _ => hx j) (fun j _ => hy j) h i hi
  · rw [h.2 i hi]
    exact hd i

end

/-! ### The value of a slice -/

theorem digitsVal_lt (x : Reg) (i n : Nat) (hx : ∀ j, i ≤ j → j < i + n → (x.digit j).toNat ≤ 9) :
    digitsVal x i n < 10 ^ n := by
  induction n generalizing i with
  | zero => exact Nat.one_pos
  | succ n ih =>
    have htail := ih (i + 1) fun j h1 h2 => hx j (by omega) (by omega)
    have hhead := hx i le_rfl (by omega)
    rw [digitsVal, Nat.pow_succ]
    omega

theorem sliceVal_lt {r : DigitRange} {x : Reg} (hx : bcdOn r x) : sliceVal r x < 10 ^ r.count :=
  digitsVal_lt x r.first r.count fun j h1 h2 => hx j ((r.holds_iff j).2 ⟨h1, h2⟩)

/-- Columns sum: what holds of each digit holds of the values, the last carry giving `10 ^ n` back. -/
theorem digitsVal_of_columns (σ : Int) (x y z : Reg) (c : Nat → Bool) (i n : Nat)
    (hcol : ∀ j, i ≤ j → j < i + n → ((z.digit j).toNat : Int) =
      (x.digit j).toNat + σ * ((y.digit j).toNat + (c j).toNat - 10 * (c (j + 1)).toNat)) :
    (digitsVal z i n : Int) =
      digitsVal x i n + σ * (digitsVal y i n + (c i).toNat - 10 ^ n * (c (i + n)).toNat) := by
  induction n generalizing i with
  | zero => simp [digitsVal]
  | succ n ih =>
    have htail := ih (i + 1) fun j h1 h2 => hcol j (by omega) (by omega)
    have hhead := hcol i le_rfl (by omega)
    rw [Nat.add_right_comm, Nat.add_assoc] at htail
    simp only [digitsVal, Nat.cast_add, Nat.cast_mul, Nat.cast_ofNat, pow_succ]
    linear_combination hhead + 10 * htail

/-- The value law of a digit loop, for both signs (R129). -/
theorem sliceVal_of_loopResult {σ : Int} {op : Nibble → Nibble → Bool → Nibble × Bool} {r : DigitRange} {x y d z : Reg}
    {seed k : Bool} (hop : DecimalColumn σ op) (hle : r.first ≤ r.last) (hx : bcdOn r x) (hy : bcdOn r y)
    (h : loopResult op r x y d seed z k) :
    (sliceVal r z : Int) = sliceVal r x + σ * (sliceVal r y + seed.toNat - 10 ^ r.count * k.toNat) := by
  obtain ⟨⟨c, rfl, rfl, hc⟩, _⟩ := h
  have hend : r.first + r.count = r.last + 1 := by
    simp only [DigitRange.count]
    omega
  rw [← hend]
  refine digitsVal_of_columns σ x y z c r.first r.count fun j h1 h2 => ?_
  have hj := (r.holds_iff j).2 ⟨h1, h2⟩
  obtain ⟨hcol, _⟩ := hop _ _ (c j) (hx j hj) (hy j hj)
  simpa only [hc j hj] using hcol

/-- Settles O56: the last carry is what takes the sum below `10 ^ n`. -/
theorem addSliceValue : Obligations.AddSliceValue := by
  intro r x y d seed hle hlast hx hy
  have hloop := addSlice_result r x y d seed hle hlast
  have hz := bcdOn_of_loopResult decimalColumn_bcdAdd hx hy hloop
  have hlt := sliceVal_lt hz
  have hval := sliceVal_of_loopResult decimalColumn_bcdAdd hle hx hy hloop
  generalize (addSlice r x y d seed).1 = z at *
  generalize (addSlice r x y d seed).2 = k at *
  have hsum : sliceVal r x + sliceVal r y + seed.toNat = sliceVal r z + 10 ^ r.count * k.toNat := by
    zify
    linear_combination -hval
  refine ⟨?_, ?_, hz⟩
  · rw [hsum, Nat.add_mul_mod_self_left, Nat.mod_eq_of_lt hlt]
  · cases k <;> simp [hsum, hlt]

/-- Settles O57: the last borrow is what takes the difference back to 0 or more. -/
theorem subSliceValue : Obligations.SubSliceValue := by
  intro r x y d seed hle hlast hx hy
  have hloop := subSlice_result r x y d seed hle hlast
  have hz := bcdOn_of_loopResult decimalColumn_bcdSub hx hy hloop
  have hlt := sliceVal_lt hz
  have hval := sliceVal_of_loopResult decimalColumn_bcdSub hle hx hy hloop
  generalize (subSlice r x y d seed).1 = z at *
  generalize (subSlice r x y d seed).2 = k at *
  have hdiff : (sliceVal r x : Int) - sliceVal r y - seed.toNat = sliceVal r z + 10 ^ r.count * -k.toNat := by
    linear_combination -hval
  refine ⟨?_, ?_, hz⟩
  · rw [hdiff, Int.add_mul_emod_self_left, Int.emod_eq_of_lt (Int.natCast_nonneg _) (by exact_mod_cast hlt)]
  · zify at hlt
    cases k with
    | false => exact iff_of_false Bool.false_ne_true (by simp only [Bool.toNat_false] at hval; omega)
    | true => exact iff_of_true rfl (by simp only [Bool.toNat_true, Nat.cast_one, mul_one] at hval; omega)

/-! ### The full-word adds -/

theorem sliceVal_word (x : Reg) : sliceVal ⟨0, 13⟩ x = digitsVal x 0 14 := rfl

/-- An opcode that adds two registers of 14 BCD digits on the whole word (R130). -/
theorem exec_of_fullWordAdd {i : Instr} {s : State} {x y d : Reg} {put : Reg → Bool → State}
    (he : exec i s = arith false .w s fun r =>
      let z := addSlice r x y d false
      put z.1 z.2)
    (hx : bcdReg x) (hy : bcdReg y) :
    ∃ z k, exec i s = .next (put z k) ∧
      digitsVal z 0 14 = (digitsVal x 0 14 + digitsVal y 0 14) % 10 ^ 14 ∧
      (k = true ↔ 10 ^ 14 ≤ digitsVal x 0 14 + digitsVal y 0 14) := by
  obtain ⟨hval, hcarry, _⟩ := addSliceValue ⟨0, 13⟩ x y d false (by decide) le_rfl (fun j _ => hx j) fun j _ => hy j
  rw [show (DigitRange.mk 0 13).count = 14 from rfl] at hval hcarry
  simp only [sliceVal_word, Bool.toNat_false, Nat.add_zero] at hval hcarry
  exact ⟨_, _, he.trans (arith_of_slice rfl _), hval, hcarry⟩

/-- Settles O58. -/
theorem fullWordAdd : Obligations.FullWordAdd := fun _ =>
  ⟨exec_of_fullWordAdd rfl, exec_of_fullWordAdd rfl, exec_of_fullWordAdd rfl, fun hc => exec_of_fullWordAdd rfl hc hc⟩

end Sys2Proof.Machine

/-! Registers of BCD digits stay so under every instruction but an LDC of 10..15 (R122, R234). -/

namespace Sys2Proof.Machine

/-! ### The slice operations -/

theorem bcdReg_zero : bcdReg Reg.zero := fun i => by
  rw [Reg.digit_zero]
  decide

theorem bcdReg_setDigit {x : Reg} (hx : bcdReg x) {i : Nat} (hi : i < 14) {v : Nibble} (hv : v.toNat ≤ 9) :
    bcdReg (x.setDigit i v) := fun j => by
  rw [Reg.digit_setDigit _ _ _ _ hi]
  split
  · exact hv
  · exact hx j

section
variable {f : SliceCode} {p : Nibble} {r : DigitRange} {x y d : Reg} {seed : Bool}

theorem bcdReg_addSlice (hr : sliceRange f p = some r) (hx : bcdReg x) (hy : bcdReg y) (hd : bcdReg d) :
    bcdReg (addSlice r x y d seed).1 :=
  have ⟨hle, hlast⟩ := sliceRange_bounds hr
  bcdReg_of_loopResult decimalColumn_bcdAdd hx hy hd (addSlice_result r x y d seed hle hlast)

theorem bcdReg_subSlice (hr : sliceRange f p = some r) (hx : bcdReg x) (hy : bcdReg y) (hd : bcdReg d) :
    bcdReg (subSlice r x y d seed).1 :=
  have ⟨hle, hlast⟩ := sliceRange_bounds hr
  bcdReg_of_loopResult decimalColumn_bcdSub hx hy hd (subSlice_result r x y d seed hle hlast)

/-- Copies, clears and shifts write BCD digits, if the digits they write are. -/
theorem bcdReg_writeDigits {g : Nat → Nibble} (hr : sliceRange f p = some r) (hg : ∀ i, (g i).toNat ≤ 9)
    (hd : bcdReg d) : bcdReg (writeDigits g r.first r.count d) := fun i => by
  obtain ⟨hle, hlast⟩ := sliceRange_bounds hr
  rw [writeDigits_range g r d i hle hlast]
  split
  · exact hg i
  · exact hd i

theorem bcdReg_copySlice (hr : sliceRange f p = some r) (hx : bcdReg x) (hd : bcdReg d) :
    bcdReg (copySlice r x d) := bcdReg_writeDigits hr hx hd

theorem bcdReg_clearSlice (hr : sliceRange f p = some r) (hd : bcdReg d) : bcdReg (clearSlice r d) :=
  bcdReg_writeDigits hr (fun _ => Nat.zero_le 9) hd

theorem bcdReg_shiftLeft (hr : sliceRange f p = some r) (hx : bcdReg x) : bcdReg (shiftLeft r x) := by
  refine bcdReg_writeDigits hr (fun i => ?_) hx
  split
  · exact Nat.zero_le 9
  · exact hx (i - 1)

theorem bcdReg_shiftRight (hr : sliceRange f p = some r) (hx : bcdReg x) : bcdReg (shiftRight r x) := by
  refine bcdReg_writeDigits hr (fun i => ?_) hx
  split
  · exact Nat.zero_le 9
  · exact hx (i + 1)

end

/-! ### States of BCD registers -/

section
variable {s : State} {z : Reg} {k : Bool}

theorem State.allBcd.withA (hs : s.allBcd) (hz : bcdReg z) : State.allBcd { s with a := z, carry := k } :=
  ⟨hz, hs.2⟩

theorem State.allBcd.withB (hs : s.allBcd) (hz : bcdReg z) : State.allBcd { s with b := z, carry := k } :=
  have ⟨ha, _, hrest⟩ := hs
  ⟨ha, hz, hrest⟩

theorem State.allBcd.withC (hs : s.allBcd) (hz : bcdReg z) : State.allBcd { s with c := z, carry := k } :=
  have ⟨ha, hb, _, hrest⟩ := hs
  ⟨ha, hb, hz, hrest⟩

theorem State.allBcd.withT (hs : s.allBcd) (hz : bcdReg z) : State.allBcd { s with t := z, carry := k } :=
  have ⟨ha, hb, hc, hd, he, hf, hm, _⟩ := hs
  ⟨ha, hb, hc, hd, he, hf, hm, hz⟩

end

/-- An arithmetic opcode keeps BCD registers if its body does on a slice; a fault writes no register. -/
theorem allBcd_of_arith {i : Instr} {gk : Bool} {f : SliceCode} {s t : State} {body : DigitRange → State}
    (h : exec i s = .next t) (he : exec i s = arith gk f s body) (hs : s.allBcd)
    (hbody : ∀ r, sliceRange f s.p = some r → (body r).allBcd) : t.allBcd := by
  rcases arith_next_inv (he.symm.trans h) with ⟨k, rfl⟩ | ⟨r, hr, rfl⟩
  · exact hs
  · exact hbody r hr

theorem allBcd_of_ldc {k : Nibble} {s t : State} (hk : k.toNat ≤ 9) (hs : s.allBcd)
    (h : exec (.ldc k) s = .next t) : t.allBcd := by
  obtain ⟨ha, hb, hc, hrest⟩ := hs
  have he : exec (.ldc k) s = execLdc k s := rfl
  rw [he, execLdc] at h
  rcases pointerDigit_cases s.p with ⟨hp, hi⟩ | ⟨_, hi⟩
  · rw [hi] at h
    cases h
    exact ⟨ha, hb, bcdReg_setDigit hc hp hk, hrest⟩
  · rw [hi] at h
    cases h
    exact ⟨ha, hb, hc, hrest⟩

theorem allBcd_of_rot {s t : State} (hs : s.allBcd) (h : exec .rot s = .next t) : t.allBcd := by
  obtain ⟨ha, hb, hc, hd, he, hf, hm, ht⟩ := hs
  have hrot : exec .rot s = execRot s := rfl
  rw [hrot, execRot] at h
  split at h <;> cases h
  · exact ⟨ha, hb, hd, he, hf, hc, hm, ht⟩
  · exact ⟨ha, hb, hf, hc, hd, he, hm, ht⟩

/-- Settles O59: an arithmetic opcode by its slice operation, a move by the registers it permutes, and the other
instructions as writers of no register. -/
theorem bcdDigitsStayBcd : Obligations.BcdDigitsStayBcd := by
  intro i s t hs hldc h
  have ⟨ha, hb, hc, hd, he, hf, hm, ht⟩ := hs
  have h0 := bcdReg_zero
  cases i with
  | addACtoA | addABtoA | incA =>
    exact allBcd_of_arith h rfl hs fun r hr => hs.withA (bcdReg_addSlice hr ‹_› ‹_› ‹_›)
  | subABtoA | subACtoA | decA =>
    exact allBcd_of_arith h rfl hs fun r hr => hs.withA (bcdReg_subSlice hr ‹_› ‹_› ‹_›)
  | addACtoC | incC | dblC =>
    exact allBcd_of_arith h rfl hs fun r hr => hs.withC (bcdReg_addSlice hr ‹_› ‹_› ‹_›)
  | negC | nineC | subACtoC | decC =>
    exact allBcd_of_arith h rfl hs fun r hr => hs.withC (bcdReg_subSlice hr ‹_› ‹_› ‹_›)
  | subACtoT | subABtoT =>
    exact allBcd_of_arith h rfl hs fun r hr => hs.withT (bcdReg_subSlice hr ‹_› ‹_› ‹_›)
  | movCA => exact allBcd_of_arith h rfl hs fun r hr => hs.withA (bcdReg_copySlice hr hc ha)
  | movAB => exact allBcd_of_arith h rfl hs fun r hr => hs.withB (bcdReg_copySlice hr ha hb)
  | movBC => exact allBcd_of_arith h rfl hs fun r hr => hs.withC (bcdReg_copySlice hr hb hc)
  | clrA => exact allBcd_of_arith h rfl hs fun r hr => hs.withA (bcdReg_clearSlice hr ha)
  | clrB => exact allBcd_of_arith h rfl hs fun r hr => hs.withB (bcdReg_clearSlice hr hb)
  | clrC => exact allBcd_of_arith h rfl hs fun r hr => hs.withC (bcdReg_clearSlice hr hc)
  | shlA => exact allBcd_of_arith h rfl hs fun r hr => hs.withA (bcdReg_shiftLeft hr ha)
  | shrA => exact allBcd_of_arith h rfl hs fun r hr => hs.withA (bcdReg_shiftRight hr ha)
  | shrB => exact allBcd_of_arith h rfl hs fun r hr => hs.withB (bcdReg_shiftRight hr hb)
  | shrC => exact allBcd_of_arith h rfl hs fun r hr => hs.withC (bcdReg_shiftRight hr hc)
  | xchAB =>
    exact allBcd_of_arith h rfl hs fun r hr =>
      (hs.withA (k := s.carry) (bcdReg_copySlice hr hb ha)).withB (bcdReg_copySlice hr ha hb)
  | xchAC =>
    exact allBcd_of_arith h rfl hs fun r hr =>
      (hs.withA (k := s.carry) (bcdReg_copySlice hr hc ha)).withC (bcdReg_copySlice hr ha hc)
  | xchBC =>
    exact allBcd_of_arith h rfl hs fun r hr =>
      (hs.withB (k := s.carry) (bcdReg_copySlice hr hc hb)).withC (bcdReg_copySlice hr hb hc)
  | ldc k => exact allBcd_of_ldc (hldc k rfl) hs h
  | rot => exact allBcd_of_rot hs h
  | xcm => cases h; exact ⟨ha, hb, hm, hd, he, hf, hc, ht⟩
  | push => cases h; exact ⟨ha, hb, hc, hc, hd, he, hm, ht⟩
  | pop => cases h; exact ⟨hd, hb, hc, he, hf, hf, hm, ht⟩
  | mtoc => cases h; exact ⟨ha, hb, hm, hd, he, hf, hm, ht⟩
  | clreg => cases h; exact ⟨h0, h0, h0, h0, h0, h0, h0, ht⟩
  | tstB | tstC | tstDecC | tstDecA | call | brnc | ret | selrom | keyjmp | tsts | sets | clrs | clrst | tstp | setp
  | incp | decp | dispoff | disptog | undefined =>
    rcases exec_next_inv h with ⟨k, _, rfl⟩ | ⟨_, u, rfl⟩ <;> exact hs

end Sys2Proof.Machine

/-! Control transfer (41_control_transfer.md R140 to R147): what each instruction of the family writes, how its word is
decoded, and the cycle of a branch (R143, R310). -/

namespace Sys2Proof.Machine

/-! ### The branch and the jump on a key -/

/-- The branch predicate, read off PREV_CARRY (R142). -/
theorem exec_brnc (a : Byte) (s : State) :
    exec (.brnc a) s = .next { s with pc := if s.prevCarry then s.pc else a } := by
  have he : exec (.brnc a) s = execBrnc a s := rfl
  rw [he, execBrnc, State.branchTaken]
  cases s.prevCarry <;> rfl

/-- The jump on a key that was transferred (R147). -/
theorem exec_keyjmp_of_keyValid {s : State} (h : s.keyValid = true) :
    exec .keyjmp s = .next { s with pc := s.keyRom, status := clearStatusBit s.status 0, keyValid := false } := if_pos h

/-- The jump on a key with none transferred since the last one (R147, decision D20). -/
theorem exec_keyjmp_of_stale {s : State} (h : s.keyValid = false) :
    exec .keyjmp s = .next (s.raise .staleKey) := if_neg (by simp [h])

/-! ### The obligations -/

/-- Settles O26: PREV_CARRY of the execute stage is the CARRY at the start of the cycle, and PC is incremented
before it. -/
theorem branchFollowsPreviousCycle : Obligations.BranchFollowsPreviousCycle := by
  intro s h l a hrun hpair hdec
  have hexec := exec_brnc a (s.atExecute (pairWord h l))
  refine ⟨_, stepRunsDecodedInstruction s _ h l _ hrun hpair hdec hexec, ?_, by simp, by simp⟩
  cases hcarry : s.carry with
  | false => simp [hcarry]
  | true => simp [hcarry]

/-- Settles O34: both branches of the jump on a key, and the one status bit that it clears. -/
theorem keyJumpResult : Obligations.KeyJumpResult := fun _ =>
  ⟨fun hvalid => ⟨_, exec_keyjmp_of_keyValid hvalid, fun _ hj => statusBit_clear _ _ _ hj⟩, exec_keyjmp_of_stale⟩

/-- Settles O30. -/
theorem callResult : Obligations.CallResult := fun _ _ => rfl

/-- Settles O31. -/
theorem branchResult : Obligations.BranchResult := by
  refine ⟨fun w htag => decodeWord_of_tag_three htag, fun a s => ⟨fun hclear => ?_, fun hset => ?_⟩⟩
  · rw [exec_brnc, if_neg (by simp [hclear])]
  · rw [exec_brnc, if_pos hset]

/-- Settles O32: the ignored bits `w[9:7]` are no part of the format of RET. -/
theorem returnResult : Obligations.ReturnResult :=
  ⟨fun _ hlow => HasFormat.decodeWord_eq (.ret hlow), fun _ => rfl⟩

/-- Settles O33. -/
theorem bankSelectResult : Obligations.BankSelectResult := fun _ _ => rfl

end Sys2Proof.Machine

/-! Status bits, pointer and constant load (42_status_pointer.md R160 to R170): one equation per outcome of the status
skeleton and of LDC, and the two counts of P modulo 16. -/

namespace Sys2Proof.Machine

/-! ### The two outcomes of the status skeleton and of the constant load -/

theorem onStatusBit_of_lt {n : Nibble} (h : n.toNat < 12) (s : State) (body : Nat → State) :
    onStatusBit n s body = .next (body n.toNat) := by
  rcases onStatusBit_cases n s body with ⟨_, e⟩ | ⟨hout, _⟩
  · exact e
  · omega

theorem onStatusBit_of_ge {n : Nibble} (h : 12 ≤ n.toNat) (s : State) (body : Nat → State) :
    onStatusBit n s body = .next (s.raise .statusIndex) := by
  rcases onStatusBit_cases n s body with ⟨hin, _⟩ | ⟨_, e⟩
  · omega
  · exact e

/-- The constant load with P on a digit of C (R170). -/
theorem exec_ldc_of_lt {s : State} (h : s.p.toNat < 14) (k : Nibble) :
    exec (.ldc k) s = .next { s with c := s.c.setDigit s.p.toNat k, p := s.p - 1 } := by
  have he : exec (.ldc k) s = execLdc k s := rfl
  rw [he, execLdc, pointerDigit, if_pos h]

/-- The constant load with P past the digits of C (R170, decision D7). -/
theorem exec_ldc_of_ge {s : State} (h : 14 ≤ s.p.toNat) (k : Nibble) :
    exec (.ldc k) s = .next (s.raise .pointerRange) := by
  have he : exec (.ldc k) s = execLdc k s := rfl
  rw [he, execLdc, pointerDigit, if_neg (Nat.not_lt.2 h)]

/-! ### The counts of P (R167, R168) -/

theorem toNat_pointer_succ (p : Nibble) : (p + 1).toNat = (p.toNat + 1) % 16 := BitVec.toNat_add p 1

theorem toNat_pointer_pred (p : Nibble) : (p - 1).toNat = (p.toNat + 15) % 16 :=
  (BitVec.toNat_sub p 1).trans (congrArg (· % 16) (Nat.add_comm 15 p.toNat))

/-! ### The obligations -/

/-- Settles O35: each instruction is the status skeleton on its own body; a write of S[n] changes that bit alone. -/
theorem statusBitResults : Obligations.StatusBitResults := by
  refine fun n s => ⟨fun hin => ⟨?test, ?set, ?clear⟩, fun hout => ⟨?testOut, ?setOut, ?clearOut⟩⟩
  case test => exact onStatusBit_of_lt hin s _
  case set => exact ⟨_, onStatusBit_of_lt hin s _, fun j _ => statusBit_set s.status n.toNat j hin⟩
  case clear => exact ⟨_, onStatusBit_of_lt hin s _, fun j hj => statusBit_clear s.status n.toNat j hj⟩
  case testOut | setOut | clearOut => exact onStatusBit_of_ge hout s _

/-- Settles O38: the digit written reads back at P alone. -/
theorem loadConstantResult : Obligations.LoadConstantResult := by
  refine fun k s => ⟨fun hp => ⟨_, _, exec_ldc_of_lt hp k, ?_, fun i hi => ?_, toNat_pointer_pred s.p⟩,
    fun hp => exec_ldc_of_ge hp k⟩
  · rw [Reg.digit_setDigit _ _ _ _ hp, if_pos rfl]
  · rw [Reg.digit_setDigit _ _ _ _ hp, if_neg hi]

/-- Settles O36: the ignored bits `w[9:6]` are no part of the format of CLRST. -/
theorem clearStatusResult : Obligations.ClearStatusResult :=
  ⟨fun _ hlow => HasFormat.decodeWord_eq (.clrst hlow), fun _ => ⟨0, rfl, fun _ _ => BitVec.getLsbD_zero⟩⟩

/-- Settles O37: the four rows of the table of formats, and P tested, set and counted. -/
theorem pointerResults : Obligations.PointerResults := by
  refine ⟨fun w => ⟨fun h => ?_, fun h => ?_, fun h => ?_, fun h => ?_⟩, fun n s => ⟨?test, rfl, ?up, ?down⟩⟩
  · exact HasFormat.decodeWord_eq (.tstp h)
  · exact HasFormat.decodeWord_eq (.setp h)
  · exact HasFormat.decodeWord_eq (.incp h)
  · exact HasFormat.decodeWord_eq (.decp h)
  case test => exact ⟨_, rfl, decide_eq_true_iff⟩
  case up => exact ⟨_, rfl, toNat_pointer_succ s.p⟩
  case down => exact ⟨_, rfl, toNat_pointer_pred s.p⟩

end Sys2Proof.Machine

/-! The special moves and the display latch (43_moves_display.md R181 to R189): what each instruction writes, one
equation per reading where a parameter chooses it; the words and the round trips follow from the equations. -/

namespace Sys2Proof.Machine

/-! ### The register moves (R181 to R186) -/

theorem exec_xcm (s : State) : exec .xcm s = .next { s with c := s.m, m := s.c } := rfl

theorem exec_push (s : State) : exec .push s = .next { s with f := s.e, e := s.d, d := s.c } := rfl

theorem exec_pop (s : State) : exec .pop s = .next { s with a := s.d, d := s.e, e := s.f } := rfl

theorem exec_mtoc (s : State) : exec .mtoc s = .next { s with c := s.m } := rfl

theorem exec_clreg (s : State) : exec .clreg s = .next { s with
    a := Reg.zero, b := Reg.zero, c := Reg.zero, d := Reg.zero, e := Reg.zero, f := Reg.zero, m := Reg.zero } := rfl

/-- The rotation by its name (R185, decision D13). -/
theorem exec_rot_of_down {s : State} (h : s.cfg.rotate = .down) :
    exec .rot s = .next { s with c := s.d, d := s.e, e := s.f, f := s.c } := by
  have he : exec .rot s = execRot s := rfl
  rw [he, execRot, h]

/-- The rotation by the source's chain of arrows (R185, decision D13). -/
theorem exec_rot_of_arrow {s : State} (h : s.cfg.rotate = .arrow) :
    exec .rot s = .next { s with d := s.c, e := s.d, f := s.e, c := s.f } := by
  have he : exec .rot s = execRot s := rfl
  rw [he, execRot, h]

/-! ### The display latch (R187, R188) -/

theorem exec_dispoff_of_separate {s : State} (h : s.cfg.displaySequential = false) :
    exec .dispoff s = .next { s with de := false, upd := false } :=
  congrArg Host.Outcome.next (if_neg (by simp [h]))

theorem exec_disptog_of_separate {s : State} (h : s.cfg.displaySequential = false) :
    exec .disptog s = .next { s with de := !s.de } :=
  congrArg Host.Outcome.next (if_neg (by simp [h]))

/-- Disable, then toggle: DE ends at 1 whatever it was (R188, decision D14). -/
theorem exec_dispoff_of_sequential {s : State} (h : s.cfg.displaySequential = true) :
    exec .dispoff s = .next { s with de := true, upd := false } :=
  congrArg Host.Outcome.next (if_pos h)

/-- In sequence the two display instructions are one (R188). -/
theorem exec_disptog_of_sequential {s : State} (h : s.cfg.displaySequential = true) :
    exec .disptog s = .next { s with de := true, upd := false } :=
  congrArg Host.Outcome.next (if_pos h)

/-! ### The obligations -/

/-- Settles O39: five rows of the table of formats, and each move's equation, run a second time on the state it leaves
for the round trips. -/
theorem registerMoves : Obligations.RegisterMoves := by
  refine ⟨fun w => ⟨fun hlow hh => ?_, fun hlow hh => ?_, fun hlow hh => ?_, fun hlow hh => ?_, fun hlow hh => ?_⟩,
    fun s => ⟨?xcm, ?push, exec_pop s, exec_mtoc s, ?clreg⟩⟩
  · exact HasFormat.decodeWord_eq (.xcm ⟨hlow, hh⟩)
  · exact HasFormat.decodeWord_eq (.push ⟨hlow, hh⟩)
  · exact HasFormat.decodeWord_eq (.pop ⟨hlow, hh⟩)
  · exact HasFormat.decodeWord_eq (.mtoc ⟨hlow, hh⟩)
  · exact HasFormat.decodeWord_eq (.clreg ⟨hlow, hh⟩)
  case xcm => exact ⟨_, exec_xcm s, rfl, exec_xcm _⟩
  case push => exact ⟨_, exec_push s, rfl, exec_pop _⟩
  case clreg => exact ⟨Reg.zero, _, Reg.digit_zero, rfl, exec_clreg s, exec_clreg _⟩

/-- Settles O40. -/
theorem rotateResult : Obligations.RotateResult := fun _ => ⟨exec_rot_of_down, exec_rot_of_arrow⟩

/-- Settles O41. -/
theorem displayInstructionResults : Obligations.DisplayInstructionResults := fun _ =>
  ⟨fun h => ⟨exec_dispoff_of_separate h, exec_disptog_of_separate h⟩,
    fun h => ⟨exec_dispoff_of_sequential h, exec_disptog_of_sequential h⟩⟩

/-- Either reading of ROT is a cycle of length four on C, D, E, F (R185), and ROT leaves the reading as it is. -/
theorem exec_rot_four (s : State) : ∃ t u v,
    exec .rot s = .next t ∧ exec .rot t = .next u ∧ exec .rot u = .next v ∧ exec .rot v = .next s := by
  cases h : s.cfg.rotate with
  | down => exact ⟨_, _, _, exec_rot_of_down h, exec_rot_of_down h, exec_rot_of_down h, exec_rot_of_down h⟩
  | arrow => exact ⟨_, _, _, exec_rot_of_arrow h, exec_rot_of_arrow h, exec_rot_of_arrow h, exec_rot_of_arrow h⟩

/-- Settles O42: the equations of the moves composed. MTOC leaves C and M equal, so the exchange after it changes
nothing. -/
theorem specialMoveRoundTrips : Obligations.SpecialMoveRoundTrips := by
  refine fun s => ⟨?pushPop, ?xcmXcm, ?mtocXcm, ?clregClreg, exec_rot_four s⟩
  case pushPop => exact ⟨_, _, exec_push s, exec_pop _, rfl⟩
  case xcmXcm => exact ⟨_, exec_xcm s, exec_xcm _⟩
  case mtocXcm => exact ⟨_, _, exec_mtoc s, exec_xcm _, rfl⟩
  case clregClreg => exact ⟨_, exec_clreg s, exec_clreg _⟩

end Sys2Proof.Machine

/-! Completion of the execute stage (44_arithmetic.md R200; 60_exceptions.md R261, R263): where the table of model
faults names none, of the two outcomes of `exec` only the one that completes is left. -/

namespace Sys2Proof.Machine

theorem completes_of_faultOf_eq_none {i : Instr} {s : State} (h : faultOf i s = none) : Completes i s := by
  rcases exec_faults_or_completes i s with ⟨k, hk, _⟩ | hcompletes
  · exact absurd (hk.symm.trans h) (Option.some_ne_none k)
  · exact hcompletes

/-- Settles O11: no instruction is a listed writer of FAULT. -/
theorem execCompletesUnlessFault : Obligations.ExecCompletesUnlessFault := by
  intro i s h
  obtain ⟨_, u, hexec⟩ := completes_of_faultOf_eq_none h
  exact ⟨s.writtenBy i u, hexec, s.writtenBy_fault u i⟩

end Sys2Proof.Machine

/-! A model fault in the execute stage and the end of a cycle (60_exceptions.md R261 to R263, R271, R272, R280): of the
two outcomes of `exec` the one that faults, and the fields that each end of a cycle writes. -/

namespace Sys2Proof.Machine

/-! ### The execute stage that faults -/

theorem exec_of_faultOf_eq_some {i : Instr} {s : State} {k : FaultKind} (h : faultOf i s = some k) :
    exec i s = .next (s.raise k) := by
  rcases exec_faults_or_completes i s with ⟨k', hk', hexec⟩ | ⟨hnone, _⟩
  · obtain rfl : k = k' := Option.some.inj (h.symm.trans hk')
    exact hexec
  · exact absurd (h.symm.trans hnone) (Option.some_ne_none k)

/-- Settles O12: the state that `State.raise` gives, written out. -/
theorem execRaisesTheFault : Obligations.ExecRaisesTheFault := fun _ _ _ h => exec_of_faultOf_eq_some h

/-- Settles O60: of the two ends of a cycle the one after a fault, which writes the fetch field alone. -/
theorem executeFaultEndsTheCycle : Obligations.ExecuteFaultEndsTheCycle := by
  intro s u h l i hrun hpair hdec hexec hfault
  rw [stepRunsDecodedInstruction s u h l i hrun hpair hdec hexec,
    State.endCycle_of_fault (Option.isSome_iff_ne_none.2 hfault), State.endFetch]

/-! ### The end of a cycle that did not fault -/

/-- The frame capture on the falling edge of DE (R271, R272). -/
theorem State.afterExecute_of_fell {u : State} {de0 : Bool} (h : de0 = true ∧ u.de = false) :
    (u.afterExecute de0).fb = project u.cfg u.a u.b ∧ (u.afterExecute de0).upd = true ∧
      (u.afterExecute de0).frame = true := by
  simp [(u.displayFell_iff de0).2 h]

/-- With no falling edge FB and UPD stay and FRAME is 0 (R271, R272). -/
theorem State.afterExecute_of_not_fell {u : State} {de0 : Bool} (h : ¬ (de0 = true ∧ u.de = false)) :
    (u.afterExecute de0).fb = u.fb ∧ (u.afterExecute de0).upd = u.upd ∧ (u.afterExecute de0).frame = false := by
  have hfell : u.displayFell de0 = false := Bool.eq_false_iff.2 (mt (u.displayFell_iff de0).1 h)
  simp [hfell]

/-- Settles O43: the execute stage keeps the parameters, so the projection is the one under those of `s`. -/
theorem captureOnFallingEdge : Obligations.CaptureOnFallingEdge := by
  intro s u h l i hrun hpair hdec hexec hu
  have hcfg : u.cfg = s.cfg := (exec_keeps_rom_cfg hexec).2
  have hstep := stepRunsDecodedInstruction s u h l i hrun hpair hdec hexec
  rw [State.endCycle_of_running hu] at hstep
  exact ⟨u.afterExecute s.de, hstep, fun hfell => hcfg ▸ State.afterExecute_of_fell hfell,
    fun hnot => State.afterExecute_of_not_fell hnot, rfl⟩

/-! ### The error signal -/

/-- A cycle that recorded a fault wrote FRAME and left ERR (R261, decision D27). -/
theorem outputs_of_faulted_step {s t : State} (h : step s = .next t) (hfault : t.fault ≠ none) :
    t.err = s.err ∧ t.frame = false := by
  rcases step_next_cases h with rfl | ⟨i, w, k, _, rfl⟩ | ⟨i, w, u, _, hu, rfl⟩
  · simp
  · simp
  · exact absurd hu hfault

/-- Settles O44. -/
theorem errorSignalOfCycle : Obligations.ErrorSignalOfCycle := by
  refine fun s t h => ⟨fun hrun => ?_, outputs_of_faulted_step h⟩
  rw [err_of_step h hrun, State.atErrorAddress_iff]

end Sys2Proof.Machine

/-! The host's actions between cycles (60_exceptions.md R290 to R292; 70_reset_and_hazards.md R300): what each answers,
and that each keeps a sound state sound. -/

namespace Sys2Proof.Machine

/-- Settles O23: a key write is refused exactly on the code of the empty latch. -/
theorem hostWritesLatchAndUpd : Obligations.HostWritesLatchAndUpd := fun _ =>
  ⟨fun _ hv => if_neg hv, rfl, rfl⟩

/-- The inversion of `hostStep`: what a host action that answers a next state did. -/
theorem hostStep_next_inv {h : HostAction} {s t : State} (hstep : hostStep h s = .next t) :
    (∃ v, t = s.keyWrite v) ∨ t = s.acknowledge ∨ t = s.resetEvent := by
  cases h with
  | keyWrite v =>
    obtain ⟨hwrite, hempty, _⟩ := hostWritesLatchAndUpd s
    by_cases hv : v = 0xFF
    · subst hv
      cases hstep.symm.trans hempty
    · exact .inl ⟨v, by injection hstep.symm.trans (hwrite v hv)⟩
  | acknowledge => exact .inr (.inl (by injection hstep.symm))
  | reset => exact .inr (.inr (by injection hstep.symm))

/-- No clause of the invariant reads the latch or UPD. -/
theorem State.Sound.with_latch_upd {s : State} (hs : s.Sound) (v : Byte) (u : Bool) :
    State.Sound { s with latch := v, upd := u } where
  romForm := hs.romForm
  romHigh := hs.romHigh
  config := hs.config
  idle := hs.idle
  key := hs.key
  frame := hs.frame
  err := hs.err
  record := hs.record

/-- After the reset event the image and the parameters are those before it, and the rest is as at reset (R300). -/
theorem State.Sound.resetEvent {s : State} (hs : s.Sound) : s.resetEvent.Sound where
  romForm := hs.romForm
  romHigh := hs.romHigh
  config := hs.config
  idle := resetSound.idle
  key := resetSound.key
  frame := nofun
  err := resetSound.err
  record := resetSound.record

/-- Settles O16. -/
theorem hostActionsKeepSound : Obligations.HostActionsKeepSound := by
  intro h s t hs hstep
  rcases hostStep_next_inv hstep with ⟨v, rfl⟩ | rfl | rfl
  · exact hs.with_latch_upd v s.upd
  · exact hs.with_latch_upd s.latch false
  · exact hs.resetEvent

end Sys2Proof.Machine

/-! The cells of the display (60_exceptions.md R273 to R275): the sign cell and the digit cell by their nibbles, and the
two layouts. -/

namespace Sys2Proof.Machine

/-! ### One cell -/

theorem signCell_of_ge {v : Nibble} (h : 8 ≤ v.toNat) : signCell v = cellMinus := if_pos h

theorem signCell_of_lt {v : Nibble} (h : v.toNat < 8) : signCell v = cellBlank := if_neg (Nat.not_le.2 h)

theorem glyphOf_eq_getElem (k : Config) (v : Nibble) : glyphOf k v = k.glyph[v.toNat] := by
  rw [glyphOf, Vector.getElem?_eq_getElem v.isLt, Option.getD_some]

section
variable {a b : Reg} {i : Nat} (k : Config)

theorem digitCell_of_blank (h : 8 ≤ (b.digit i).toNat) : digitCell k a b i = cellBlank := if_pos h

theorem digitCell_of_point (h : (b.digit i).toNat = 2) : digitCell k a b i = glyphOf k (a.digit i) ||| cellDp := by
  have hflag : b.digit i = 2 := BitVec.eq_of_toNat_eq h
  rw [digitCell, if_neg (by omega), if_pos hflag]

theorem digitCell_of_plain (hlt : (b.digit i).toNat < 8) (hne : (b.digit i).toNat ≠ 2) :
    digitCell k a b i = glyphOf k (a.digit i) := by
  have hflag : b.digit i ≠ 2 := fun e => hne (congrArg BitVec.toNat e)
  rw [digitCell, if_neg (Nat.not_le.2 hlt), if_neg hflag]

end

/-- The flag 2 alone lights the decimal point: a blank has no segment, a legal glyph no point (R275, decision D18). -/
theorem digitCell_dp_iff {k : Config} (hk : k.wf) (a b : Reg) (i : Nat) :
    (digitCell k a b i).getLsbD 7 = true ↔ (b.digit i).toNat = 2 := by
  by_cases htwo : (b.digit i).toNat = 2
  · rw [digitCell_of_point k htwo, BitVec.getLsbD_or]
    simp [htwo, cellDp]
  · refine iff_of_false (ne_true_of_eq_false ?_) htwo
    rcases Nat.lt_or_ge (b.digit i).toNat 8 with hlt | hge
    · rw [digitCell_of_plain k hlt htwo, glyphOf_dp hk]
    · rw [digitCell_of_blank k hge]
      rfl

/-! ### The layouts -/

/-- The exponent blanked: the full mantissa is in cells 1 to 7 (R273, decision D17). -/
theorem project_of_exponent_blank {b : Reg} (h : 8 ≤ (b.digit 0).toNat) (k : Config) (a : Reg) :
    project k a b = #v[signCell (a.digit 13), digitCell k a b 12, digitCell k a b 11, digitCell k a b 10,
      digitCell k a b 9, digitCell k a b 8, digitCell k a b 7, digitCell k a b 6] := if_pos h

/-- The exponent shown: its sign and its two digits are in cells 5 to 7 (R273, decision D17). -/
theorem project_of_exponent_shown {b : Reg} (h : (b.digit 0).toNat < 8) (k : Config) (a : Reg) :
    project k a b = #v[signCell (a.digit 13), digitCell k a b 12, digitCell k a b 11, digitCell k a b 10,
      digitCell k a b 9, signCell (a.digit 2), digitCell k a b 1, digitCell k a b 0] := if_neg (Nat.not_le.2 h)

/-- Both layouts begin with the sign of the mantissa (R273). -/
theorem project_sign (k : Config) (a b : Reg) : (project k a b)[0] = signCell (a.digit 13) := by
  rcases Nat.lt_or_ge (b.digit 0).toNat 8 with hlt | hge
  · simp [project_of_exponent_shown hlt]
  · simp [project_of_exponent_blank hge]

/-- Settles O45. -/
theorem projectionCells : Obligations.ProjectionCells := by
  refine fun k a b => ⟨fun v => ⟨signCell_of_ge, signCell_of_lt⟩,
    fun i => ⟨digitCell_of_blank k, fun htwo => ?two, fun hlt hne => ?plain, fun hk => digitCell_dp_iff hk a b i⟩,
    project_sign k a b, fun hge j hj h1 => ?blanked, fun hlt => ?shown⟩
  case two => rw [digitCell_of_point k htwo, glyphOf_eq_getElem, cellDp]
  case plain => rw [digitCell_of_plain k hlt hne, glyphOf_eq_getElem]
  case blanked =>
    simp only [project_of_exponent_blank hge]
    interval_cases j <;> rfl
  case shown =>
    simp only [project_of_exponent_shown hlt]
    refine ⟨fun j hj h1 h4 => ?_, rfl, rfl, rfl⟩
    interval_cases j <;> rfl

end Sys2Proof.Machine

/-! The core never halts (70_reset_and_hazards.md R325): the execute stage answers a next state on every instruction, so
what is left of a cycle that could stop a running core is a fetched pair the decoder refuses, and R62 keeps such a pair
out of the image. -/

namespace Sys2Proof.Machine

/-- H of a fetched pair stands at an even index of the image, where R62 asks for bits 7..2 at 0. -/
theorem State.romPair_high_zeros {s : State} {bank : Bank} {a h l : Byte} (hclear : s.rom.highBitsClear = true)
    (hpair : s.romPair bank a = some (h, l)) : h.extractLsb' 2 6 = 0 := by
  obtain ⟨_, hhigh, _⟩ := (s.romPair_eq_some_iff ..).1 hpair
  have heven : romIndex bank a % 2 = 0 := by
    rw [romIndex]
    omega
  exact Memory.read_even_high hclear heven hhigh

/-- Both outcomes of the execute stage, a model fault too, are next states (R261). -/
theorem exists_exec_next (i : Instr) (s : State) : ∃ u, exec i s = .next u := by
  rcases exec_faults_or_completes i s with ⟨k, _, hexec⟩ | ⟨_, u, hexec⟩
  · exact ⟨s.raise k, hexec⟩
  · exact ⟨s.writtenBy i u, hexec⟩

/-- Settles O13, by whether the fetch finds a word. -/
theorem runningStateHasNextCycle : Obligations.RunningStateHasNextCycle := by
  intro s hrun hclear
  cases hpair : s.romPair s.offset s.pc with
  | none => exact ⟨s.beginCycle.fetchFault, step_of_no_word hrun hpair⟩
  | some pair =>
    obtain ⟨h, l⟩ := pair
    have hdec := decode_pair (State.romPair_high_zeros hclear hpair) l []
    obtain ⟨u, hexec⟩ := exists_exec_next (decodeWord (pairWord h l)) (s.atExecute (pairWord h l))
    exact ⟨u.endCycle s.de, stepRunsDecodedInstruction s u h l _ hrun hpair hdec hexec⟩

end Sys2Proof.Machine
